-- ==== Sys2Proof/Word.lean ====
section
/-! DEFINITION. The plain data of the relia-lok protocol core: the 8-bit sets and registers, the 16-bit
CurrentStatusWord and the byte strings carried by the line ports (spec/00_scope.md R8, R10). -/

namespace Sys2Proof

/-- An 8-bit set or register, bit 0 least significant; also one byte of a line (R8, R10). -/
abbrev Byte := BitVec 8

/-- A 16-bit value: the CurrentStatusWord (R8, R34). -/
abbrev Word16 := BitVec 16

/-- A byte string, first character first: an inbound line or a reply line (R54, R71, R77). -/
abbrev Line := List Byte

end Sys2Proof
end

