-- ==== Sys2Proof/Config.lean ====
section
/-! DEFINITION. What a build fixes (spec/00_scope.md R8; the channel count of 8 is in the widths of Word.lean, R9) and what no rule fixes: the inputs of the environment
(spec/10_state.md R38), which agent moves next (R13, R136), and the free value that supplies both. -/

namespace Sys2Proof

/-- `P_MASKED_EDGE` (R8, R182): what becomes of a rising edge that arrives while `imask = 1`. -/
inductive MaskedEdge where
  /-- The edge is kept in its pending bit and serviced after the mask. -/
  | deferred
  /-- The edge is lost. -/
  | dropped
deriving DecidableEq, Repr

/-- One step of the Environment (R38): it stands for the Hardware Status Provider, the Line Transport and the
physical circuit. -/
inductive EnvStep where
  /-- The transport delivers one line on `RX`: any finite byte string (R20, D18). -/
  | rx (line : Line)
  /-- The level `EN` takes any 8-bit value. -/
  | setEn (v : Byte)
  /-- The level `ST` takes any 8-bit value. -/
  | setSt (v : Byte)
  /-- The level `IA` takes a value; a rising edge is detected in this step (R173). -/
  | setIa (v : Bool)
  /-- The level `FL` takes a value; a rising edge is detected in this step (R174). -/
  | setFl (v : Bool)
  /-- `TRIP(t)`: a physical fault has tripped the interlock because of the channels in `t` (R170). -/
  | trip (t : Byte)
  /-- `RSTOK`: a successful physical reset of the interlock (R171). -/
  | rstok
deriving DecidableEq, Repr

/-- The values that R41 and R272 leave to a draw at power-up. -/
structure PowerUpDraws where
  fr : Byte
  tmpEn : Byte
  en : Byte
  st : Byte
  ia : Bool
  fl : Bool
deriving DecidableEq, Repr, Inhabited

/-- One choice of the interleaving (R13): which agent moves next, or which input the environment gives. -/
inductive Turn where
  /-- The Line Decoder's step (R157). -/
  | lineDecoder
  /-- The Active-Edge Service's step (R177). -/
  | activeEdgeService
  /-- The Fault-Edge Service's step (R178). -/
  | faultEdgeService
  /-- The Dispatcher's next step (R201, R205 to R212). -/
  | dispatcher
  /-- A step of the Environment (R38). -/
  | env (e : EnvStep)
  /-- Power loss and the power-up that follows it, which is the block's one reset (R257, R270), with the values
  it draws. -/
  | powerUp (d : PowerUpDraws)
deriving DecidableEq, Repr, Inhabited

/-- `P_MASKED_EDGE` takes the value the spec decides, `Deferred` (R8, R182, D7).
UNVERIFIED against the original firmware, unsafe (entry 6); the machine for either value is `stepWith`. -/
def Config.maskedEdge : MaskedEdge := .deferred

/-- `MODEL_ID`: the identity string `OCTO-LOK` (R8, R78, R209). -/
def Config.modelId : Line := [0x4F, 0x43, 0x54, 0x4F, 0x2D, 0x4C, 0x4F, 0x4B]

/-- `P_EOL`, the outbound terminator the spec decides: LF (R8, R80). No rule of the block depends on it. -/
def Config.eol : Line := [0x0A]

/-- `P_SETTLE`, the wait inside an actuator pulse: OPEN, and no rule depends on it (R8, R214, D29, entry 16). -/
opaque Config.settleInterval : Nat

/-- `P_BAUD`, the serial rate: OPEN, outside the block, and no rule depends on it (R8, R273, D27, entry 16). -/
opaque Config.baudRate : Nat

/-- FREE VALUE (entry 4): the turn taken when State lists no turn of its own, indexed by the count of such turns.
No rule fixes the order of the agents or the inputs (R13, R38, R136), so nothing constrains it. DESIGN CHOICE, safe:
every interleaving is a value of it. -/
opaque Config.freeTurn : Nat → Turn

end Sys2Proof
end

