-- ==== Sys2Proof/Machine/Codec.lean ====
section
/-! DEFINITION. The Bit-Packing Codec (spec/40_codec.md R100 to R108) and the reply lines it fills
(spec/30_encoding.md R77 to R79). It has no state, no flags and no failure. -/

namespace Sys2Proof.Machine

/-! ### The CurrentStatusWord -/

/-- `pack_csw(E, S)`: bit `2i + 1` is `E[i]`, the enabled bit, and bit `2i` is `S[i]`, the ok bit, so channel 8 is the
most significant pair (R101); the enable bit masks nothing (R103). That the enabled bit is the high bit of its pair is
the spec's reading D10: UNVERIFIED, unsafe (entry 11). -/
def packCsw (e s : Byte) : Word16 :=
  BitVec.ofFnLE fun j : Fin 16 => if j.val % 2 = 1 then e.getLsbD (j.val / 2) else s.getLsbD (j.val / 2)

/-- `pair(w, n) = w[2n-1 : 2n-2]`, the field of channel number `n`, 1 to 8 (R102). -/
def channelPair (w : Word16) (n : Nat) : BitVec 2 := w.extractLsb' (2 * n - 2) 2

/-- The enable set of a CurrentStatusWord: `E[i] = w[2i+1]` (R108). -/
def unpackEnables (w : Word16) : Byte := BitVec.ofFnLE fun i : Fin 8 => w.getLsbD (2 * i.val + 1)

/-- The state set of a CurrentStatusWord: `S[i] = w[2i]` (R108). -/
def unpackStates (w : Word16) : Byte := BitVec.ofFnLE fun i : Fin 8 => w.getLsbD (2 * i.val)

/-! ### Payloads -/

/-- `'0'` and `'1'` are the bytes 0x30 and 0x31 (R12; ASCII is PRESUMED by the spec, entry 17). -/
def asciiBit (b : Bool) : Byte := if b then 0x31 else 0x30

/-- `ser_n(v)`: byte `k` renders bit `n - 1 - k`, so the first byte is the most significant bit (R53, R79). -/
def ser (n : Nat) (v : BitVec n) : Line :=
  (List.range n).map fun k => asciiBit (v.getLsbD (n - 1 - k))

/-- `ser8` (R104). -/
def ser8 (v : Byte) : Line := ser 8 v

/-- `ser16` (R105). -/
def ser16 (w : Word16) : Line := ser 16 w

/-- The bit that a payload byte stands for, if it is `'0'` or `'1'` (R106). -/
def bitOfAscii (c : Byte) : Option Bool :=
  if c = 0x31 then some true else if c = 0x30 then some false else none

/-- The number whose binary digits are the bytes of a string, the first most significant, after the digits already
read as `acc`; none at a byte that is no digit (R106). -/
def digitsValue : Nat → Line → Option Nat
  | acc, [] => some acc
  | acc, c :: rest =>
    match bitOfAscii c with
    | some b => digitsValue (2 * acc + b.toNat) rest
    | none => none

/-- `deser_n(s)`, the supervising computer's decoder (R106, D35); no port of the block takes a payload (entry 23). -/
def deser (n : Nat) (s : Line) : Option (BitVec n) :=
  if s.length = n then (digitsValue 0 s).map (BitVec.ofNat n) else none

/-- `deser_8` (R106). -/
def deser8 (s : Line) : Option Byte := deser 8 s

/-- `deser_16` (R106). -/
def deser16 (s : Line) : Option Word16 := deser 16 s

/-! ### Replies -/

/-- The eleven reply forms, each with the value it reports (R78). -/
inductive Reply where
  | active
  | resetSuccess
  | resetFail (csw : Word16)
  | status (csw : Word16)
  | faultReg (fr : Byte)
  | deactive
  | disableSuccess
  | identity
  | manualReset
  | manualDisable
  | fault (fr : Byte)
deriving DecidableEq, Repr

/-- The token of a reply (R78): `ACTIVE`, `RESET_SUCCESS`, `RESET_FAIL`, `STATUS`, `FAULT_REG`, `DEACTIVE`,
`DISABLE_SUCCESS`, `OCTO-LOK`, `MANUAL_RESET`, `MANUAL_DISABLE`, `FAULT`. -/
def replyToken : Reply → Line
  | .active => [0x41, 0x43, 0x54, 0x49, 0x56, 0x45]
  | .resetSuccess => [0x52, 0x45, 0x53, 0x45, 0x54, 0x5F, 0x53, 0x55, 0x43, 0x43, 0x45, 0x53, 0x53]
  | .resetFail _ => [0x52, 0x45, 0x53, 0x45, 0x54, 0x5F, 0x46, 0x41, 0x49, 0x4C]
  | .status _ => [0x53, 0x54, 0x41, 0x54, 0x55, 0x53]
  | .faultReg _ => [0x46, 0x41, 0x55, 0x4C, 0x54, 0x5F, 0x52, 0x45, 0x47]
  | .deactive => [0x44, 0x45, 0x41, 0x43, 0x54, 0x49, 0x56, 0x45]
  | .disableSuccess => [0x44, 0x49, 0x53, 0x41, 0x42, 0x4C, 0x45, 0x5F, 0x53, 0x55, 0x43, 0x43, 0x45, 0x53, 0x53]
  | .identity => Config.modelId
  | .manualReset => [0x4D, 0x41, 0x4E, 0x55, 0x41, 0x4C, 0x5F, 0x52, 0x45, 0x53, 0x45, 0x54]
  | .manualDisable => [0x4D, 0x41, 0x4E, 0x55, 0x41, 0x4C, 0x5F, 0x44, 0x49, 0x53, 0x41, 0x42, 0x4C, 0x45]
  | .fault _ => [0x46, 0x41, 0x55, 0x4C, 0x54]

/-- The payload of a reply that has one (R78, R79). -/
def replyPayload : Reply → Option Line
  | .resetFail w => some (ser16 w)
  | .status w => some (ser16 w)
  | .faultReg v => some (ser8 v)
  | .fault v => some (ser8 v)
  | _ => none

/-- The reply line: a bare token, or a token, one space (0x20) and a payload (R77). -/
def replyText (r : Reply) : Line :=
  match replyPayload r with
  | none => replyToken r
  | some p => replyToken r ++ [0x20] ++ p

end Sys2Proof.Machine
end

