-- ==== Sys2Proof/Syntax.lean ====
section
/-! DEFINITION. The instructions of the relia-lok protocol core: the PendingActions (spec/30_encoding.md R83) and one
constructor of `Instr` per row of spec/opcode_table.json. None has an operand (R83, R84). -/

namespace Sys2Proof

/-- The five commands, in the order the source lists them (R73). -/
inductive Command where
  | reset
  | status
  | faultRegister
  | disable
  | model
deriving DecidableEq, Repr

/-- The three events, in the order the source lists them (R74). -/
inductive Event where
  | manualReset
  | manualDisable
  | fault
deriving DecidableEq, Repr

/-- A PendingAction: a tagged value, a Command or an Event (00_scope glossary, R130). -/
inductive PendingAction where
  | command (c : Command)
  | event (e : Event)
deriving DecidableEq, Repr

/-- One constructor per row of spec/opcode_table.json (R85): the eight actions and EMPTY in the format PAR8, and the
five literals of the format LINE. -/
inductive Instr where
  /-- PAR8 0x80, R205. -/
  | reset
  /-- PAR8 0x81, R206. -/
  | status
  /-- PAR8 0x82, R207. -/
  | faultRegister
  /-- PAR8 0x83, R208. -/
  | disable
  /-- PAR8 0x84, R209. -/
  | model
  /-- PAR8 0xC0, R210. -/
  | manualReset
  /-- PAR8 0xC1, R211. -/
  | manualDisable
  /-- PAR8 0xC2, R212. -/
  | fault
  /-- PAR8 0x00, R75 and R201. -/
  | empty
  /-- LINE `RESET?`, R151. -/
  | lineReset
  /-- LINE `STATUS?`, R152. -/
  | lineStatus
  /-- LINE `FAULT_REG?`, R153. -/
  | lineFaultReg
  /-- LINE `DISABLE?`, R154. -/
  | lineDisable
  /-- LINE `RELIALOK?`, R155. -/
  | lineRelialok
deriving DecidableEq, Repr

/-- An undecoded word in one of the two inbound formats (R70): a value of `PAR`, or a whole line. -/
inductive RawWord where
  | par (w : Byte)
  | line (bytes : Line)
deriving DecidableEq, Repr

/-- The instruction of a PendingAction's PAR8 row. -/
def Instr.ofAction : PendingAction → Instr
  | .command .reset => .reset
  | .command .status => .status
  | .command .faultRegister => .faultRegister
  | .command .disable => .disable
  | .command .model => .model
  | .event .manualReset => .manualReset
  | .event .manualDisable => .manualDisable
  | .event .fault => .fault

/-- The instruction of a command's LINE row. -/
def Instr.ofLine : Command → Instr
  | .reset => .lineReset
  | .status => .lineStatus
  | .faultRegister => .lineFaultReg
  | .disable => .lineDisable
  | .model => .lineRelialok

end Sys2Proof
end

