-- ==== Sys2Proof/WellFormed.lean ====
section
/-! DEFINITION. Which words are well formed, from the field layout of spec/30_encoding.md R72 and the code ranges of
R73 and R74, one check each. An `Instr` has no operand (R83, R84), so every term of it is well formed; a LINE is never
reserved (R81), so every line is. -/

namespace Sys2Proof

/-- Field `V` of `PAR`, bit 7: the word holds an action (R72). -/
def parV (w : Byte) : Bool := w.getLsbD 7

/-- Field `K` of `PAR`, bit 6: the category, set for an Event (R72). -/
def parK (w : Byte) : Bool := w.getLsbD 6

/-- The reserved field of `PAR`, bits 5:3 (R72). -/
def parReserved (w : Byte) : BitVec 3 := w.extractLsb' 3 3

/-- Field `CODE` of `PAR`, bits 2:0 (R72). -/
def parCode (w : Byte) : BitVec 3 := w.extractLsb' 0 3

/-- With `V = 0` the only value is EMPTY, `0x00` (R75, R76). -/
def emptyCheck (w : Byte) : Bool := parV w || w == 0x00

/-- The reserved bits 5:3 are written as 0 by every stage (R72, R75). -/
def reservedCheck (w : Byte) : Bool := parReserved w == 0

/-- A Command's code is 0 to 4 (R73). -/
def commandCodeCheck (w : Byte) : Bool := !(parV w && !parK w) || (parCode w).toNat ≤ 4

/-- An Event's code is 0 to 2 (R74). -/
def eventCodeCheck (w : Byte) : Bool := !(parV w && parK w) || (parCode w).toNat ≤ 2

/-- `w` is EMPTY or one of the eight actions: not a reserved word (R76). -/
def parWf (w : Byte) : Bool :=
  emptyCheck w && reservedCheck w && commandCodeCheck w && eventCodeCheck w

/-- Well-formed words of either inbound format (R76, R81). -/
def RawWord.wf : RawWord → Bool
  | .par w => parWf w
  | .line _ => true

end Sys2Proof
end

