-- ==== Sys2Proof/Decode.lean ====
section
/-! DEFINITION. Decoding and encoding of the two inbound formats, `PAR8` (spec/30_encoding.md R72 to R76) and `LINE`
(R71, R81; spec/42_command_decoder.md R150 to R156). Decoding is total and rejects by name. -/

namespace Sys2Proof

/-- Why a word is no instruction. -/
inductive DecodeReject where
  /-- A reserved value of `PAR` (R76). -/
  | reservedPar (w : Byte)
  /-- A line that decodes to `None` (R81, R156). -/
  | unrecognisedLine (line : Line)
deriving DecidableEq, Repr

/-- The decoder's answer. -/
inductive Decoded where
  | instr (i : Instr)
  | rejected (why : DecodeReject)
deriving DecidableEq, Repr

/-! ### The PAR8 format -/

/-- `enc(a)`: the PAR value of an action (R73, R74, R75). -/
def encAction : PendingAction → Byte
  | .command .reset => 0x80
  | .command .status => 0x81
  | .command .faultRegister => 0x82
  | .command .disable => 0x83
  | .command .model => 0x84
  | .event .manualReset => 0xC0
  | .event .manualDisable => 0xC1
  | .event .fault => 0xC2

/-- EMPTY (R75). -/
def emptyPar : Byte := 0x00

/-- `dec(w)`: the action of a PAR value; none for EMPTY and for the reserved values (R75, R76). -/
def decAction (w : Byte) : Option PendingAction :=
  if w = 0x80 then some (.command .reset)
  else if w = 0x81 then some (.command .status)
  else if w = 0x82 then some (.command .faultRegister)
  else if w = 0x83 then some (.command .disable)
  else if w = 0x84 then some (.command .model)
  else if w = 0xC0 then some (.event .manualReset)
  else if w = 0xC1 then some (.event .manualDisable)
  else if w = 0xC2 then some (.event .fault)
  else none

/-- The instruction of a PAR value (R85). -/
def decodePar (w : Byte) : Decoded :=
  if w = emptyPar then .instr .empty
  else
    match decAction w with
    | some a => .instr (Instr.ofAction a)
    | none => .rejected (.reservedPar w)

/-! ### The LINE format -/

/-- The literal of each command, as bytes (R71, R151 to R155): `RESET?`, `STATUS?`, `FAULT_REG?`, `DISABLE?`,
`RELIALOK?`. -/
def lineLiteral : Command → Line
  | .reset => [0x52, 0x45, 0x53, 0x45, 0x54, 0x3F]
  | .status => [0x53, 0x54, 0x41, 0x54, 0x55, 0x53, 0x3F]
  | .faultRegister => [0x46, 0x41, 0x55, 0x4C, 0x54, 0x5F, 0x52, 0x45, 0x47, 0x3F]
  | .disable => [0x44, 0x49, 0x53, 0x41, 0x42, 0x4C, 0x45, 0x3F]
  | .model => [0x52, 0x45, 0x4C, 0x49, 0x41, 0x4C, 0x4F, 0x4B, 0x3F]

/-- `decode(line)` (R150): a command when the whole line equals its literal (R151 to R155), `None` otherwise
(R156). -/
def decodeCommand (line : Line) : Option Command :=
  if line = lineLiteral .reset then some .reset
  else if line = lineLiteral .status then some .status
  else if line = lineLiteral .faultRegister then some .faultRegister
  else if line = lineLiteral .disable then some .disable
  else if line = lineLiteral .model then some .model
  else none

/-- The instruction of a line (R85). -/
def decodeLine (line : Line) : Decoded :=
  match decodeCommand line with
  | some c => .instr (Instr.ofLine c)
  | none => .rejected (.unrecognisedLine line)

/-- Decoding, total on every word of either format. -/
def decode : RawWord → Decoded
  | .par w => decodePar w
  | .line l => decodeLine l

/-! ### The encoder -/

/-- The word of an instruction, from the encoding tables of R71, R73, R74 and R75. -/
def encode : Instr → RawWord
  | .reset => .par (encAction (.command .reset))
  | .status => .par (encAction (.command .status))
  | .faultRegister => .par (encAction (.command .faultRegister))
  | .disable => .par (encAction (.command .disable))
  | .model => .par (encAction (.command .model))
  | .manualReset => .par (encAction (.event .manualReset))
  | .manualDisable => .par (encAction (.event .manualDisable))
  | .fault => .par (encAction (.event .fault))
  | .empty => .par emptyPar
  | .lineReset => .line (lineLiteral .reset)
  | .lineStatus => .line (lineLiteral .status)
  | .lineFaultReg => .line (lineLiteral .faultRegister)
  | .lineDisable => .line (lineLiteral .disable)
  | .lineRelialok => .line (lineLiteral .model)

/-! ### Words as the opcode table numbers them -/

/-- The first `n` bytes of a number, least significant byte first: the first byte of a line is the table's bits
7 to 0 (entry 8). -/
def bytesOf : Nat → Nat → Line
  | 0, _ => []
  | n + 1, w => BitVec.ofNat 8 w :: bytesOf n (w / 256)

/-- The undecoded word behind `nbits` bits of value `w`: up to one byte is a PAR word, more is a line of that many
bytes, since no command literal is shorter than six (R71, R82). DESIGN CHOICE (entry 8). -/
def tableWord (nbits w : Nat) : RawWord :=
  if nbits ≤ 8 then .par (BitVec.ofNat 8 w) else .line (bytesOf ((nbits + 7) / 8) w)

/-- The instruction the decoder reads from a word as spec/opcode_table.json numbers its bits. -/
def decodeTableWord (nbits w : Nat) : Option Instr :=
  match decode (tableWord nbits w) with
  | .instr i => some i
  | .rejected _ => none

end Sys2Proof
end

