-- ==== Sys2Proof/Machine/State.lean ====
section
/-! DEFINITION. The state of the relia-lok protocol core as plain data: the block's storage (spec/10_state.md R26, R28
to R35), the environment's state that the block samples (R38), and the model's own schedule. There is no memory, no
register file, no program counter and no flag (R26, R27, R36, R37, R50). -/

namespace Sys2Proof.Machine

/-- The actuator of a pulse (R35, R214). -/
inductive Actuator where
  | reset
  | disable
deriving DecidableEq, Repr

/-- One output transaction (R35). -/
inductive Obs where
  /-- One reply line on `TX`, without its terminator (R20, R24). -/
  | line (text : Line)
  /-- One transaction on `PULSE_RST` or `PULSE_DIS` (R25). -/
  | pulse (x : Actuator)
deriving DecidableEq, Repr

/-- The Dispatcher's state `ds`: `Idle`, or `Proc(act, k)` for exactly the actions and step numbers that R205 to R212
define (R30, R200). DEDUCED, safe (entry 12): a pair that no rule defines is no value. -/
inductive DispState where
  | idle
  /-- `Proc(Command Reset, k)`, R205. -/
  | reset (k : Fin 5)
  /-- `Proc(Command Status, k)`, R206. -/
  | status (k : Fin 2)
  /-- `Proc(Command FaultRegister, 0)`, R207. -/
  | faultRegister
  /-- `Proc(Command Disable, k)`, R208. -/
  | disable (k : Fin 5)
  /-- `Proc(Command Model, 0)`, R209. -/
  | model
  /-- `Proc(Event ManualReset, 0)`, R210. -/
  | manualReset
  /-- `Proc(Event ManualDisable, 0)`, R211. -/
  | manualDisable
  /-- `Proc(Event Fault, 0)`, R212. -/
  | fault
deriving DecidableEq, Repr

/-- The whole machine. -/
structure State where
  /-- `FR`, the latched FaultRegister (R28). -/
  fr : Byte
  /-- `PAR`, the Pending-Action Register (R29, R72). -/
  par : Byte
  /-- `ds`, the Dispatcher's state (R30). -/
  ds : DispState
  /-- `tmp_en`, the held `EN` sample (R31). -/
  tmpEn : Byte
  /-- `imask`, the interrupt-suppression flag (R32). -/
  imask : Bool
  /-- `pend_a`, the edge-pending flag of `IA` (R33). -/
  pendA : Bool
  /-- `pend_f`, the edge-pending flag of `FL` (R33). -/
  pendF : Bool
  /-- `obs`, the output history, oldest first (R35). -/
  obs : List Obs
  /-- `rxq`, received lines not yet decoded, oldest first (R38). -/
  rxq : List Line
  /-- The level `EN` (R20, R21). -/
  en : Byte
  /-- The level `ST` (R20, R21). -/
  st : Byte
  /-- The level `IA` (R20, R22). -/
  ia : Bool
  /-- The level `FL` (R20, R23). -/
  fl : Bool
  /-- The MODEL's own: the turns to come, next first (entry 4). -/
  agenda : List Turn
  /-- The MODEL's own: how many turns were taken from `Config.freeTurn` (entry 4). -/
  draws : Nat
deriving DecidableEq, Repr

/-- Why the machine stops. The hardware itself never does (R240, R242); this is the spec's one model-level fault. -/
inductive Fault where
  /-- `Fault(RESERVED_PAR)`: the Dispatcher's drain found a reserved word in `PAR` (R76, R132, R243, R245).
  Raised by `beginAction` and `fetchAction` only. Safe: the spec gives a reserved word no action, and no run from reset
  reaches one. -/
  | reservedPar
deriving DecidableEq, Repr

/-- Why an instruction has no meaning. -/
inductive Refusal where
  /-- An instruction without a meaning in this model: raised by `exec`'s arms only, and by none of them now. Safe. -/
  | notModelled (mnemonic : String)
deriving DecidableEq, Repr

/-- The outcome of one step. -/
abbrev Result := Host.Outcome State Fault Refusal

/-- The machine right after reset (R41, R271): `PAR` EMPTY, `ds` Idle, `imask`, `pend_a` and `pend_f` 0, `obs` and
`rxq` empty, as the spec states. `FR`, `tmp_en` and the four levels, which the spec leaves to a draw, hold 0: DESIGN
CHOICE, unsafe (entries 1, 2, 3); `powerUp` gives the same reset for every draw. The schedule is empty (entry 4). -/
def State.reset : State where
  fr := 0x00
  par := emptyPar
  ds := .idle
  tmpEn := 0x00
  imask := false
  pendA := false
  pendF := false
  obs := []
  rxq := []
  en := 0x00
  st := 0x00
  ia := false
  fl := false
  agenda := []
  draws := 0

/-! ### One update per field -/

/-- Writes `FR`, nothing else. -/
def State.setFr (v : Byte) (s : State) : State := { s with fr := v }

/-- Writes `PAR`, nothing else. -/
def State.setPar (v : Byte) (s : State) : State := { s with par := v }

/-- Writes `ds`, nothing else. -/
def State.setDs (v : DispState) (s : State) : State := { s with ds := v }

/-- Writes `tmp_en`, nothing else. -/
def State.setTmpEn (v : Byte) (s : State) : State := { s with tmpEn := v }

/-- Writes `imask`, nothing else. -/
def State.setImask (v : Bool) (s : State) : State := { s with imask := v }

/-- Writes `pend_a`, nothing else. -/
def State.setPendA (v : Bool) (s : State) : State := { s with pendA := v }

/-- Writes `pend_f`, nothing else. -/
def State.setPendF (v : Bool) (s : State) : State := { s with pendF := v }

/-- Writes `obs`, nothing else. -/
def State.setObs (v : List Obs) (s : State) : State := { s with obs := v }

/-- Writes `rxq`, nothing else. -/
def State.setRxq (v : List Line) (s : State) : State := { s with rxq := v }

/-- Writes `EN`, nothing else. -/
def State.setEn (v : Byte) (s : State) : State := { s with en := v }

/-- Writes `ST`, nothing else. -/
def State.setSt (v : Byte) (s : State) : State := { s with st := v }

/-- Writes `IA`, nothing else. -/
def State.setIa (v : Bool) (s : State) : State := { s with ia := v }

/-- Writes `FL`, nothing else. -/
def State.setFl (v : Bool) (s : State) : State := { s with fl := v }

/-- Writes the agenda, nothing else. -/
def State.setAgenda (v : List Turn) (s : State) : State := { s with agenda := v }

/-- Writes the count of free turns, nothing else. -/
def State.setDraws (v : Nat) (s : State) : State := { s with draws := v }

end Sys2Proof.Machine
end

