-- ==== Sys2Proof/Machine/Flags.lean ====
section
/-! DEFINITION. The flags the rules write: `imask`, `pend_a` and `pend_f` (spec/10_state.md R32, R33). The block has no
condition codes (R36). The edge detectors are here, because setting a pending flag is their one effect
(spec/43_event_classifier.md R173 to R176). -/

namespace Sys2Proof.Machine

/-- `imask <- 1`: interrupts suppressed (R208 step 1). -/
def suppressInterrupts (s : State) : State := s.setImask true

/-- `imask <- 0`: interrupts restored (R208 step 3). -/
def restoreInterrupts (s : State) : State := s.setImask false

/-- A rising edge; falling edges and writes of the same value are none (R173, R174, R175). -/
def risingEdge (old new : Bool) : Bool := !old && new

/-- Whether the detector keeps an edge: always while `imask = 0`, and under `Deferred` while `imask = 1` too
(R173, R174, R182). -/
def edgeKept (p : MaskedEdge) (s : State) : Bool := !s.imask || p == .deferred

/-- The active-edge detector, part of the environment step that sets `IA` to `new` (R173). -/
def detectActiveEdge (p : MaskedEdge) (new : Bool) (s : State) : State :=
  if risingEdge s.ia new && edgeKept p s then s.setPendA true else s

/-- The fault-edge detector, part of the environment step that sets `FL` to `new` (R174). -/
def detectFaultEdge (p : MaskedEdge) (new : Bool) (s : State) : State :=
  if risingEdge s.fl new && edgeKept p s then s.setPendF true else s

end Sys2Proof.Machine
end

