-- ==== Sys2Proof/Machine/Operands.lean ====
section
/-! DEFINITION. The operand forms: `read(P)`, one sample of an input port or of the FaultRegister
(spec/00_scope.md R12; spec/20_memory.md R55). A read has no side effect (R57, D34), so it answers a value only. No
action carries an operand in `PAR`; each value is read by the step that uses it (R84). -/

namespace Sys2Proof.Machine

/-- `read(EN)`, 8 bits, as the provider delivers it: bit `i` is 1 when channel `i + 1` is enabled (R21). -/
def readEn (s : State) : Byte := s.en

/-- `read(ST)`, 8 bits, as the provider delivers it: bit `i` is 1 when channel `i + 1` is ok (R21). -/
def readSt (s : State) : Byte := s.st

/-- `read(IA)`, 1 bit: the interlock is active (R22). -/
def readIa (s : State) : Bool := s.ia

/-- The read of the FaultRegister latch inside the block (R28, R178, R207, R212). -/
def readFr (s : State) : Byte := s.fr

end Sys2Proof.Machine
end

