-- ==== Sys2Proof/Machine/Ops.lean ====
section
/-! DEFINITION. The shared operations of the steps: `stage` and `drain` on the Pending-Action Register
(spec/41_pending_action.md R131, R132), the outputs `emit` and `pulse` (spec/44_dispatcher.md R203, R214), and the
Dispatcher's moves between its states. The block takes no exception and has no vector (spec/60_exceptions.md R240,
R249): an interrupt is one atomic producer step, and its return is the end of that step (R250), so no operation saves
or restores anything. -/

namespace Sys2Proof.Machine

/-! ### The Pending-Action Register -/

/-- `stage(a)`: unconditional overwrite of the whole word (R131, R134). -/
def stage (a : PendingAction) (s : State) : State := s.setPar (encAction a)

/-- `tryStage(a)`: `stage` with the result the source's interface gives it, which is always true and reports no
overwrite (R131, R138, C6). -/
def tryStage (a : PendingAction) (s : State) : Bool × State := (true, stage a s)

/-- What a drain answers (R132). -/
inductive Drained where
  /-- `PAR` was EMPTY. -/
  | none
  /-- The action taken out, and the state with `PAR` cleared. -/
  | action (a : PendingAction) (s : State)
  /-- `PAR` held a reserved word. -/
  | reserved
deriving DecidableEq, Repr

/-- `drain()`: read and clear in one step (R132, R75). -/
def drain (s : State) : Drained :=
  if s.par = emptyPar then .none
  else
    match decAction s.par with
    | some a => .action a (s.setPar emptyPar)
    | none => .reserved

/-! ### Outputs -/

/-- `emit(s)`: one reply line on `TX`, appended to the history (R203, R35). -/
def emit (text : Line) (s : State) : State := s.setObs (s.obs ++ [.line text])

/-- `pulse(X)`: one transaction on `PULSE_RST` or `PULSE_DIS`, and no other change (R214). -/
def pulse (x : Actuator) (s : State) : State := s.setObs (s.obs ++ [.pulse x])

/-! ### The Dispatcher -/

/-- `ds <- Proc(act, k)`. -/
def goto (d : DispState) (s : State) : State := s.setDs d

/-- `ds <- Idle`: the end of every action (R202). -/
def finish (s : State) : State := s.setDs .idle

/-- `emit(r); ds <- Idle`: the reply that ends an action. -/
def reply (r : Reply) (s : State) : State := finish (emit (replyText r) s)

/-- `tmp_en <- read(EN)` (R205 step 3, R206 step 0). -/
def holdEn (s : State) : State := s.setTmpEn (readEn s)

/-- The CurrentStatusWord of the held `EN` sample and a fresh `ST` sample (R205 step 4, R206 step 1). -/
def freshCsw (s : State) : Word16 := packCsw s.tmpEn (readSt s)

/-- `Proc(a, 0)` (R201). -/
def startOf : PendingAction → DispState
  | .command .reset => .reset 0
  | .command .status => .status 0
  | .command .faultRegister => .faultRegister
  | .command .disable => .disable 0
  | .command .model => .model
  | .event .manualReset => .manualReset
  | .event .manualDisable => .manualDisable
  | .event .fault => .fault

/-- The action being executed, if any: `Proc(act, k)` gives `act` (R30). -/
def actionOf : DispState → Option PendingAction
  | .idle => none
  | .reset _ => some (.command .reset)
  | .status _ => some (.command .status)
  | .faultRegister => some (.command .faultRegister)
  | .disable _ => some (.command .disable)
  | .model => some (.command .model)
  | .manualReset => some (.event .manualReset)
  | .manualDisable => some (.event .manualDisable)
  | .fault => some (.event .fault)

/-- The drain step for action `a` (R201): in `Idle`, with `PAR` holding `a`, the drain takes `a` out and `ds` becomes
`Proc(a, 0)`. With another action or EMPTY in `PAR` action `a` has no step; on a reserved word the drain raises the
model fault (R132, R243). -/
def beginAction (a : PendingAction) (s : State) : Result :=
  match drain s with
  | .none => .next s
  | .action b s' => if b = a then .next (goto (startOf a) s') else .next s
  | .reserved => .fault .reservedPar

/-! ### The Line Decoder -/

/-- The Line Decoder's step on a line that is the literal of `c` (R157): consume it and stage the command, in one
atomic step. Without that line at the head of `rxq`, or while `imask = 1` (R137), the step is not enabled. -/
def decodeStep (c : Command) (s : State) : Result :=
  match s.rxq with
  | [] => .next s
  | line :: rest =>
    if s.imask = false ∧ line = lineLiteral c then .next (stage (.command c) (s.setRxq rest)) else .next s

end Sys2Proof.Machine
end

