-- ==== Sys2Proof/Machine/Commands.lean ====
section
/-! DEFINITION. The five command actions of the Dispatcher (spec/44_dispatcher.md R205 to R209). `exec<Action>` is the
next atomic step of that action: its drain step in `Idle`, its step `k` in `Proc(act, k)`; while the Dispatcher executes
another action, it has no step (entry 7). -/

namespace Sys2Proof.Machine

/-- `Reset` (R205): reply `ACTIVE` if the interlock is active, otherwise pulse the reset actuator once, check again,
and reply `RESET_SUCCESS` or `RESET_FAIL` with the CurrentStatusWord. No retry (R213). -/
def execReset (s : State) : Result :=
  match s.ds with
  | .idle => beginAction (.command .reset) s
  | .reset 0 => .next (if readIa s then reply .active s else goto (.reset 1) s)
  | .reset 1 => .next (goto (.reset 2) (pulse .reset s))
  | .reset 2 => .next (if readIa s then reply .resetSuccess s else goto (.reset 3) s)
  | .reset 3 => .next (goto (.reset 4) (holdEn s))
  | .reset 4 => .next (reply (.resetFail (freshCsw s)) s)
  | _ => .next s

/-- `Status` (R206): sample `EN`, then sample `ST` and reply `STATUS` with the CurrentStatusWord. -/
def execStatus (s : State) : Result :=
  match s.ds with
  | .idle => beginAction (.command .status) s
  | .status 0 => .next (goto (.status 1) (holdEn s))
  | .status 1 => .next (reply (.status (freshCsw s)) s)
  | _ => .next s

/-- `FaultRegister` (R207): reply `FAULT_REG` with `FR`, which is read and never cleared. -/
def execFaultRegister (s : State) : Result :=
  match s.ds with
  | .idle => beginAction (.command .faultRegister) s
  | .faultRegister => .next (reply (.faultReg (readFr s)) s)
  | _ => .next s

/-- `Disable` (R208): reply `DEACTIVE` if the interlock is inactive, otherwise pulse the disable actuator with
interrupts suppressed, check again, and reply `DISABLE_SUCCESS` or nothing (C3, C4). -/
def execDisable (s : State) : Result :=
  match s.ds with
  | .idle => beginAction (.command .disable) s
  | .disable 0 => .next (if readIa s then goto (.disable 1) s else reply .deactive s)
  | .disable 1 => .next (goto (.disable 2) (suppressInterrupts s))
  | .disable 2 => .next (goto (.disable 3) (pulse .disable s))
  | .disable 3 => .next (goto (.disable 4) (restoreInterrupts s))
  | .disable 4 => .next (if readIa s then finish s else reply .disableSuccess s)
  | _ => .next s

/-- `Model` (R209): reply the identity string. -/
def execModel (s : State) : Result :=
  match s.ds with
  | .idle => beginAction (.command .model) s
  | .model => .next (reply .identity s)
  | _ => .next s

end Sys2Proof.Machine
end

