-- ==== Sys2Proof/Machine/Events.lean ====
section
/-! DEFINITION. The three event actions of the Dispatcher (spec/44_dispatcher.md R210 to R212), in the form of
Commands.lean. -/

namespace Sys2Proof.Machine

/-- `ManualReset` (R210): reply `MANUAL_RESET`; `IA` is not read again. -/
def execManualReset (s : State) : Result :=
  match s.ds with
  | .idle => beginAction (.event .manualReset) s
  | .manualReset => .next (reply .manualReset s)
  | _ => .next s

/-- `ManualDisable` (R211): reply `MANUAL_DISABLE`; `FR` is not read again. -/
def execManualDisable (s : State) : Result :=
  match s.ds with
  | .idle => beginAction (.event .manualDisable) s
  | .manualDisable => .next (reply .manualDisable s)
  | _ => .next s

/-- `Fault` (R212): reply `FAULT` with `FR` as it is at this step, not as the Fault-Edge Service read it (R275). -/
def execFault (s : State) : Result :=
  match s.ds with
  | .idle => beginAction (.event .fault) s
  | .fault => .next (reply (.fault (readFr s)) s)
  | _ => .next s

end Sys2Proof.Machine
end

