-- ==== Sys2Proof/Machine/Lines.lean ====
section
/-! DEFINITION. The five command lines (spec/42_command_decoder.md R151 to R155): the Line Decoder's step on each
(R157). -/

namespace Sys2Proof.Machine

/-- `RESET?` stages `Command Reset` (R151). -/
def execLineReset (s : State) : Result := decodeStep .reset s

/-- `STATUS?` stages `Command Status` (R152). -/
def execLineStatus (s : State) : Result := decodeStep .status s

/-- `FAULT_REG?` stages `Command FaultRegister` (R153). -/
def execLineFaultReg (s : State) : Result := decodeStep .faultRegister s

/-- `DISABLE?` stages `Command Disable` (R154). -/
def execLineDisable (s : State) : Result := decodeStep .disable s

/-- `RELIALOK?` stages `Command Model` (R155). -/
def execLineRelialok (s : State) : Result := decodeStep .model s

end Sys2Proof.Machine
end

