-- ==== Sys2Proof/Machine/Slot.lean ====
section
/-! DEFINITION. The word EMPTY of the Pending-Action Register (spec/30_encoding.md R75, spec/44_dispatcher.md R201). -/

namespace Sys2Proof.Machine

/-- `EMPTY` (R201): the Dispatcher has no step, and polling the empty register changes no state (R132, R257, D23). -/
def execEmpty (s : State) : Result := .next s

end Sys2Proof.Machine
end

