-- ==== Sys2Proof/Machine/Dispatch.lean ====
section
/-! DEFINITION. The meaning of every instruction: one arm per row of spec/opcode_table.json. -/

namespace Sys2Proof.Machine

def exec (i : Instr) (s : State) : Host.Outcome State Fault Refusal :=
  match i with
  | .reset => Sys2Proof.Machine.execReset s
  | .status => Sys2Proof.Machine.execStatus s
  | .faultRegister => Sys2Proof.Machine.execFaultRegister s
  | .disable => Sys2Proof.Machine.execDisable s
  | .model => Sys2Proof.Machine.execModel s
  | .manualReset => Sys2Proof.Machine.execManualReset s
  | .manualDisable => Sys2Proof.Machine.execManualDisable s
  | .fault => Sys2Proof.Machine.execFault s
  | .empty => Sys2Proof.Machine.execEmpty s
  | .lineReset => Sys2Proof.Machine.execLineReset s
  | .lineStatus => Sys2Proof.Machine.execLineStatus s
  | .lineFaultReg => Sys2Proof.Machine.execLineFaultReg s
  | .lineDisable => Sys2Proof.Machine.execLineDisable s
  | .lineRelialok => Sys2Proof.Machine.execLineRelialok s

end Sys2Proof.Machine
end

