-- ==== Sys2Proof/Machine/Environment.lean ====
section
/-! DEFINITION. The steps of the Environment (spec/10_state.md R38; spec/43_event_classifier.md R170, R171, R173,
R174), the block's one reset (spec/70_reset_and_hazards.md R270), and the Line Transport's terminators
(spec/30_encoding.md R80; spec/42_command_decoder.md R159). -/

namespace Sys2Proof.Machine

/-- One environment step, under a value of `P_MASKED_EDGE` (R38). -/
def envStep (p : MaskedEdge) (e : EnvStep) (s : State) : State :=
  match e with
  | .rx line => s.setRxq (s.rxq ++ [line])
  | .setEn v => s.setEn v
  | .setSt v => s.setSt v
  | .setIa v => (detectActiveEdge p v s).setIa v
  | .setFl v => (detectFaultEdge p v s).setFl v
  | .trip t => s.setFr (s.fr ||| t)
  | .rstok => s.setFr 0x00

/-- Power-up (R41, R270, R271): every element at its reset value, `FR`, `tmp_en` and the levels at any value the draw
gives, no edge raised, `rxq` and `obs` empty. The model's own schedule goes on (entry 9). -/
def powerUp (d : PowerUpDraws) (s : State) : State where
  fr := d.fr
  par := emptyPar
  ds := .idle
  tmpEn := d.tmpEn
  imask := false
  pendA := false
  pendF := false
  obs := []
  rxq := []
  en := d.en
  st := d.st
  ia := d.ia
  fl := d.fl
  agenda := s.agenda
  draws := s.draws

/-- What the transport puts on the wire for one reply line, under a terminator `P_EOL` (R80). -/
def wireLine (eol text : Line) : Line := text ++ eol

/-- The bytes on the outbound wire for an output history: its reply lines in order, each terminated (R24, R80). -/
def wireBytes (eol : Line) : List Obs → Line
  | [] => []
  | .line text :: rest => wireLine eol text ++ wireBytes eol rest
  | .pulse _ :: rest => wireBytes eol rest

/-- What the transport delivers on `RX` for a received line with its terminator `P_EOL_IN`, which it strips (R159);
without the terminator nothing is delivered. DESIGN CHOICE (entry 18). -/
def stripTerminator (eolIn raw : Line) : Option Line :=
  if eolIn.isSuffixOf raw then some (raw.take (raw.length - eolIn.length)) else none

end Sys2Proof.Machine
end

