-- ==== Sys2Proof/Machine/Services.lean ====
section
/-! DEFINITION. The Event Classifier's two service steps (spec/43_event_classifier.md R177, R178) and the Line
Decoder's step on a line that is no command (spec/42_command_decoder.md R156, R157). Each is atomic; none reads or
writes `ds` or `tmp_en` (R181, R249); none is enabled while `imask = 1` (R137). -/

namespace Sys2Proof.Machine

/-- The event that the Fault-Edge Service stages for a FaultRegister value: `ManualDisable` for all-zero, `Fault`
otherwise (R178). -/
def classifyFault (r : Byte) : Event := if r = 0x00 then .manualDisable else .fault

/-- The Active-Edge Service step (R177): `IA` is not read; every active edge stages `ManualReset` (R179). -/
def activeEdgeService (s : State) : State :=
  if s.pendA = true ∧ s.imask = false then stage (.event .manualReset) (s.setPendA false) else s

/-- The Fault-Edge Service step (R178): it reads `FR` now and keeps nothing of it. -/
def faultEdgeService (s : State) : State :=
  if s.pendF = true ∧ s.imask = false then stage (.event (classifyFault (readFr s))) (s.setPendF false) else s

/-- The Line Decoder's step on a line that decodes to `None`: the line is consumed, with no other effect (R157). -/
def discardLine (s : State) : State :=
  match s.rxq with
  | [] => s
  | _ :: rest => if s.imask = false then s.setRxq rest else s

end Sys2Proof.Machine
end

