-- ==== Sys2Proof/Machine/Agents.lean ====
section
/-! DEFINITION. One turn of the interleaving (spec/00_scope.md R13): what the chosen agent fetches and does, and how the
schedule chooses. A turn given to an agent with no enabled step changes nothing (entry 5). -/

namespace Sys2Proof.Machine

/-- What the Dispatcher finds to execute: the action it is in, or, in `Idle`, the word in `PAR` (R30, R201). -/
inductive Fetched where
  | instr (i : Instr)
  | fault (f : Fault)
deriving DecidableEq, Repr

/-- The Dispatcher's next instruction: in `Proc(act, k)` it is `act`, and in `Idle` what `PAR` decodes to; a reserved
word is the model fault (R76, R132, R201). -/
def fetchAction (s : State) : Fetched :=
  match actionOf s.ds with
  | some a => .instr (Instr.ofAction a)
  | none =>
    match decode (.par s.par) with
    | .instr i => .instr i
    | .rejected _ => .fault .reservedPar

/-- The Dispatcher's step (R201, R205 to R212). -/
def dispatcherTurn (s : State) : Result :=
  match fetchAction s with
  | .instr i => exec i s
  | .fault f => .fault f

/-- The Line Decoder's step (R157): the head of `rxq` as an instruction, or consumed silently. -/
def lineDecoderTurn (s : State) : Result :=
  match s.rxq with
  | [] => .next s
  | line :: _ =>
    match decode (.line line) with
    | .instr i => exec i s
    | .rejected _ => .next (discardLine s)

/-- The step of the agent that turn `t` names, under a value of `P_MASKED_EDGE`. -/
def takeTurn (p : MaskedEdge) (t : Turn) (s : State) : Result :=
  match t with
  | .lineDecoder => lineDecoderTurn s
  | .activeEdgeService => .next (activeEdgeService s)
  | .faultEdgeService => .next (faultEdgeService s)
  | .dispatcher => dispatcherTurn s
  | .env e => .next (envStep p e s)
  | .powerUp d => .next (powerUp d s)

/-- The turn to take: the head of the agenda, or the free value where the agenda is empty (entry 4). -/
def nextTurn (s : State) : Turn :=
  match s.agenda with
  | t :: _ => t
  | [] => Config.freeTurn s.draws

/-- The schedule moved past that turn. -/
def popTurn (s : State) : State :=
  match s.agenda with
  | _ :: rest => s.setAgenda rest
  | [] => s.setDraws (s.draws + 1)

/-- One step of the machine under a value of `P_MASKED_EDGE` (R8, R182, D7). -/
def stepWith (p : MaskedEdge) (s : State) : Result := takeTurn p (nextTurn s) (popTurn s)

/-- A word placed where its agent fetches, with that agent's turn next: a PAR word in `PAR` with the Dispatcher in
`Idle` (R201); a line at the head of `rxq` with no mask on the Line Decoder (R157) (entry 8). -/
def placeWord (r : RawWord) (s : State) : State :=
  match r with
  | .par w => ((s.setPar w).setDs .idle).setAgenda (.dispatcher :: s.agenda)
  | .line l => ((s.setRxq (l :: s.rxq)).setImask false).setAgenda (.lineDecoder :: s.agenda)

end Sys2Proof.Machine
end

