-- ==== Sys2Proof/Machine/Step.lean ====
section
/-! DEFINITION. The step of the machine, and where the host places an instruction for it. -/

namespace Sys2Proof.Machine

/-- One atomic step: the turn that the schedule chooses, under the decided `P_MASKED_EDGE` (R8, R13). -/
def step (s : State) : Host.Outcome State Fault Refusal := stepWith Config.maskedEdge s

/-- `s` with the instruction of `nbits` bits `w` as what the very next step fetches and runs (entry 8). -/
def State.withFetchWord (s : State) (nbits w : Nat) : State := placeWord (tableWord nbits w) s

end Sys2Proof.Machine
end

