-- ==== Sys2Proof/Safety.lean ====
section
/-! DEFINITION. The terms in which claims speak about runs: runs over a list of turns, when an agent's step is enabled,
the invariant of the block, the single-slot mailbox that `PAR` implements, and weak fairness. -/

namespace Sys2Proof.Machine

/-! ### Runs -/

/-- The turns of a list taken one after the other, up to the first fault. -/
def runTurns (p : MaskedEdge) : List Turn → State → Result
  | [], s => .next s
  | t :: rest, s =>
    match takeTurn p t s with
    | .next s' => runTurns p rest s'
    | .fault f => .fault f
    | .refused r => .refused r

/-- The first `n` turns of an unending schedule. -/
def firstTurns (sched : Nat → Turn) (n : Nat) : List Turn := (List.range n).map sched

/-- Whether a turn is a power-up, which ends a run of the block and begins another (R257, R270). -/
def isPowerUp : Turn → Bool
  | .powerUp _ => true
  | _ => false

/-- No power-up among the turns. -/
def noPowerUp (ts : List Turn) : Bool := ts.all fun t => !isPowerUp t

/-- Whether the step of the agent that a turn names is enabled (R13, R137, R139, R157, R177, R178, R201). -/
def turnEnabled (t : Turn) (s : State) : Bool :=
  match t with
  | .lineDecoder => !s.rxq.isEmpty && !s.imask
  | .activeEdgeService => s.pendA && !s.imask
  | .faultEdgeService => s.pendF && !s.imask
  | .dispatcher => s.ds != .idle || s.par != emptyPar
  | .env _ => true
  | .powerUp _ => true

/-! ### The invariant of the block -/

/-- A transaction the block can make: a pulse, or a line that is one of the eleven replies (R35, R78). -/
def LegalObs : Obs → Prop
  | .line text => ∃ r : Reply, text = replyText r
  | .pulse _ => True

/-- What every step keeps: `PAR` holds no reserved word (R75, R76), `imask` is 1 exactly from the Disable
action's step 1 to its step 3 (R32, R208), and the output history holds replies and pulses only (R78). -/
structure BlockInv (s : State) : Prop where
  par_legal : parWf s.par = true
  mask_matches : s.imask = true ↔ s.ds = .disable 2 ∨ s.ds = .disable 3
  obs_legal : ∀ o ∈ s.obs, LegalObs o

/-! ### What a run observes -/

/-- The text of a reply line among the output transactions. -/
def obsLine : Obs → Option Line
  | .line text => some text
  | .pulse _ => none

/-- The actuator of a pulse among the output transactions. -/
def obsPulse : Obs → Option Actuator
  | .line _ => none
  | .pulse x => some x

/-- The reply lines of a history, in order. -/
def repliesOf (h : List Obs) : List Line := h.filterMap obsLine

/-- The pulses of a history, in order. -/
def pulsesOf (h : List Obs) : List Actuator := h.filterMap obsPulse

/-! ### The mailbox -/

/-- The action that a turn stages, if its producer's step is enabled and stages one (R133, R157, R177, R178). -/
def stagedBy (t : Turn) (s : State) : Option PendingAction :=
  match t with
  | .lineDecoder =>
    match s.rxq with
    | [] => none
    | line :: _ => if s.imask then none else (decodeCommand line).map .command
  | .activeEdgeService => if s.pendA && !s.imask then some (.event .manualReset) else none
  | .faultEdgeService =>
    if s.pendF && !s.imask then some (.event (if s.fr = 0x00 then .manualDisable else .fault)) else none
  | _ => none

/-- One turn of the abstract single-slot mailbox: a stage overwrites it, the Dispatcher's drain in `Idle` and a power-up
empty it, nothing else touches it (R59, R130, R133, R134). -/
def slotAfter (t : Turn) (s : State) (slot : Option PendingAction) : Option PendingAction :=
  match stagedBy t s with
  | some a => some a
  | none =>
    match t with
    | .dispatcher => if s.ds = .idle then none else slot
    | .powerUp _ => none
    | _ => slot

/-- The mailbox along a run. -/
def slotAlong (p : MaskedEdge) : List Turn → State → Option PendingAction → Option PendingAction
  | [], _, slot => slot
  | t :: rest, s, slot =>
    match takeTurn p t s with
    | .next s' => slotAlong p rest s' (slotAfter t s slot)
    | _ => slotAfter t s slot

/-- The `PAR` word of a mailbox (R75). -/
def slotWord : Option PendingAction → Byte
  | none => emptyPar
  | some a => encAction a

/-! ### The latch -/

/-- The FaultRegister after the environment's inputs of a list of turns: `TRIP` sets bits, `RSTOK` clears them all, and
nothing else writes it but a power-up's draw (R28, R170, R171, R172). -/
def latchAfter : List Turn → Byte → Byte
  | [], v => v
  | .env (.trip t) :: rest, v => latchAfter rest (v ||| t)
  | .env .rstok :: rest, _ => latchAfter rest 0x00
  | .powerUp d :: rest, _ => latchAfter rest d.fr
  | _ :: rest, v => latchAfter rest v

/-! ### Fairness -/

/-- The block's four agents. -/
def blockTurns : List Turn := [.dispatcher, .lineDecoder, .activeEdgeService, .faultEdgeService]

/-- Weak fairness of an unending schedule from `s` (R284, D21): an agent of the block whose step is enabled at every
moment from some point on is given a turn after that point. The environment is under no obligation (entry 15).
DESIGN CHOICE, safe (entry 26): R284 says weak fairness and also that a pending service is taken "once `imask = 0`" and
every line is decoded; where Disable actions set `imask` again and again, a pending bit or a line is not enabled for
good, and this definition then owes its agent no turn. -/
def WeaklyFair (p : MaskedEdge) (sched : Nat → Turn) (s : State) : Prop :=
  ∀ t ∈ blockTurns, ∀ n : Nat,
    (∀ m, n ≤ m → ∃ s', runTurns p (firstTurns sched m) s = .next s' ∧ turnEnabled t s' = true) →
      ∃ m, n ≤ m ∧ sched m = t

end Sys2Proof.Machine
end

