-- ==== Sys2Proof/Certificates/Slice0/Obligations.lean ====
section
/-! DEFINITION. The statements for the provers, from the numbered rules of spec/. A statement that rests on a choice of the
model says so and names the log entry. -/

open Sys2Proof Sys2Proof.Machine

/-! ### The codec (spec/40_codec.md) and the replies (spec/30_encoding.md) -/

/-- R101, R103: bit `2i + 1` of the CurrentStatusWord is `E[i]` and bit `2i` is `S[i]`, whatever `E[i]` is. -/
def Obligations.PackCswPlacesEveryBit : Prop :=
  ∀ (e s : Byte) (i : Nat), i < 8 →
    (packCsw e s).getLsbD (2 * i + 1) = e.getLsbD i ∧ (packCsw e s).getLsbD (2 * i) = s.getLsbD i

/-- R102: `pair(w, n)` is `w[2n-1 : 2n-2]`, and on a packed word it is `(enabled, ok)` of channel `n`. -/
def Obligations.PairReadsChannelBack : Prop :=
  ∀ n : Nat, 1 ≤ n → n ≤ 8 →
    (∀ w : Word16, (channelPair w n).getLsbD 1 = w.getLsbD (2 * n - 1) ∧
      (channelPair w n).getLsbD 0 = w.getLsbD (2 * n - 2)) ∧
    (∀ e s : Byte, channelPair (packCsw e s) n =
      BitVec.ofBool (e.getLsbD (n - 1)) ++ BitVec.ofBool (s.getLsbD (n - 1)))

/-- R108: `pack_csw` is a bijection, with the inverse that reads the odd bits and the even bits. -/
def Obligations.PackCswIsBijective : Prop :=
  (∀ e s : Byte, unpackEnables (packCsw e s) = e ∧ unpackStates (packCsw e s) = s) ∧
  (∀ w : Word16, packCsw (unpackEnables w) (unpackStates w) = w) ∧
  (∀ (w : Word16) (i : Nat), i < 8 →
    (unpackEnables w).getLsbD i = w.getLsbD (2 * i + 1) ∧ (unpackStates w).getLsbD i = w.getLsbD (2 * i))

/-- R104, R105: byte `k` of a payload renders bit `n - 1 - k`, and `ser16` is `ser8` of the high byte, then of the
low byte. -/
def Obligations.PayloadsAreMostSignificantBitFirst : Prop :=
  (∀ v : Byte, (ser8 v).length = 8 ∧
    ∀ k, k < 8 → (ser8 v)[k]? = some (if v.getLsbD (7 - k) then 0x31 else 0x30)) ∧
  (∀ w : Word16, (ser16 w).length = 16 ∧
    (∀ k, k < 16 → (ser16 w)[k]? = some (if w.getLsbD (15 - k) then 0x31 else 0x30)) ∧
    ser16 w = ser8 (w.extractLsb' 8 8) ++ ser8 (w.extractLsb' 0 8))

/-- R106: `deser_n` has a value exactly on strings of `n` bytes `'0'` and `'1'`, and byte `k` is then bit
`n - 1 - k` of it. -/
def Obligations.DeserDefinedExactlyOnPayloads : Prop :=
  (∀ s : Line, (deser8 s).isSome = true ↔ s.length = 8 ∧ ∀ c ∈ s, c = 0x30 ∨ c = 0x31) ∧
  (∀ s : Line, (deser16 s).isSome = true ↔ s.length = 16 ∧ ∀ c ∈ s, c = 0x30 ∨ c = 0x31) ∧
  (∀ (s : Line) (v : Byte), deser8 s = some v → ∀ k, k < 8 →
    (s[k]? = some 0x31 ↔ v.getLsbD (7 - k) = true)) ∧
  (∀ (s : Line) (w : Word16), deser16 s = some w → ∀ k, k < 16 →
    (s[k]? = some 0x31 ↔ w.getLsbD (15 - k) = true))

/-- R107: decoding a serialised value gives it back, and serialising a decoded string gives the string back. -/
def Obligations.PayloadRoundTrip : Prop :=
  (∀ v : Byte, deser8 (ser8 v) = some v) ∧
  (∀ w : Word16, deser16 (ser16 w) = some w) ∧
  (∀ (s : Line) (v : Byte), deser8 s = some v → ser8 v = s) ∧
  (∀ (s : Line) (w : Word16), deser16 s = some w → ser16 w = s)

/-- R78: the bytes of the eleven reply forms, and their total lengths. -/
def Obligations.ReplyTextsMatchTable : Prop :=
  replyText .active = [0x41, 0x43, 0x54, 0x49, 0x56, 0x45] ∧
  replyText .resetSuccess =
    [0x52, 0x45, 0x53, 0x45, 0x54, 0x5F, 0x53, 0x55, 0x43, 0x43, 0x45, 0x53, 0x53] ∧
  (∀ w : Word16, replyText (.resetFail w) =
      [0x52, 0x45, 0x53, 0x45, 0x54, 0x5F, 0x46, 0x41, 0x49, 0x4C] ++ [0x20] ++ ser16 w ∧
    (replyText (.resetFail w)).length = 27) ∧
  (∀ w : Word16, replyText (.status w) = [0x53, 0x54, 0x41, 0x54, 0x55, 0x53] ++ [0x20] ++ ser16 w ∧
    (replyText (.status w)).length = 23) ∧
  (∀ v : Byte, replyText (.faultReg v) =
      [0x46, 0x41, 0x55, 0x4C, 0x54, 0x5F, 0x52, 0x45, 0x47] ++ [0x20] ++ ser8 v ∧
    (replyText (.faultReg v)).length = 18) ∧
  replyText .deactive = [0x44, 0x45, 0x41, 0x43, 0x54, 0x49, 0x56, 0x45] ∧
  replyText .disableSuccess =
    [0x44, 0x49, 0x53, 0x41, 0x42, 0x4C, 0x45, 0x5F, 0x53, 0x55, 0x43, 0x43, 0x45, 0x53, 0x53] ∧
  replyText .identity = [0x4F, 0x43, 0x54, 0x4F, 0x2D, 0x4C, 0x4F, 0x4B] ∧
  replyText .manualReset =
    [0x4D, 0x41, 0x4E, 0x55, 0x41, 0x4C, 0x5F, 0x52, 0x45, 0x53, 0x45, 0x54] ∧
  replyText .manualDisable =
    [0x4D, 0x41, 0x4E, 0x55, 0x41, 0x4C, 0x5F, 0x44, 0x49, 0x53, 0x41, 0x42, 0x4C, 0x45] ∧
  (∀ v : Byte, replyText (.fault v) = [0x46, 0x41, 0x55, 0x4C, 0x54] ++ [0x20] ++ ser8 v ∧
    (replyText (.fault v)).length = 14)

/-- R77, R78, R79: a reply line stands for one reply only, its payload value included. -/
def Obligations.ReplyTextsDetermineTheReply : Prop :=
  ∀ r r' : Reply, replyText r = replyText r' → r = r'

/-! ### Encodings (spec/30_encoding.md, spec/42_command_decoder.md) -/

/-- R71, R73, R74, R75: the words of spec/opcode_table.json, written out, decode to their rows. -/
def Obligations.TableWordsDecodeToTheirRows : Prop :=
  decode (.par 0x80) = .instr .reset ∧ decode (.par 0x81) = .instr .status ∧
  decode (.par 0x82) = .instr .faultRegister ∧ decode (.par 0x83) = .instr .disable ∧
  decode (.par 0x84) = .instr .model ∧ decode (.par 0xC0) = .instr .manualReset ∧
  decode (.par 0xC1) = .instr .manualDisable ∧ decode (.par 0xC2) = .instr .fault ∧
  decode (.par 0x00) = .instr .empty ∧
  decode (.line [0x52, 0x45, 0x53, 0x45, 0x54, 0x3F]) = .instr .lineReset ∧
  decode (.line [0x53, 0x54, 0x41, 0x54, 0x55, 0x53, 0x3F]) = .instr .lineStatus ∧
  decode (.line [0x46, 0x41, 0x55, 0x4C, 0x54, 0x5F, 0x52, 0x45, 0x47, 0x3F]) = .instr .lineFaultReg ∧
  decode (.line [0x44, 0x49, 0x53, 0x41, 0x42, 0x4C, 0x45, 0x3F]) = .instr .lineDisable ∧
  decode (.line [0x52, 0x45, 0x4C, 0x49, 0x41, 0x4C, 0x4F, 0x4B, 0x3F]) = .instr .lineRelialok

/-- R71, R75, R85: decoding and encoding agree in both directions, over every word and every line. -/
def Obligations.DecodeAndEncodeAgree : Prop :=
  ∀ (w : RawWord) (i : Instr), decode w = .instr i ↔ w = encode i

/-- R150: a line decodes to a command exactly when it equals that command's literal, and to none otherwise. -/
def Obligations.LineDecodesExactlyToItsLiteral : Prop :=
  (∀ (line : Line) (c : Command), decodeCommand line = some c ↔ line = lineLiteral c) ∧
  (∀ line : Line, decodeCommand line = none ↔ ∀ c : Command, line ≠ lineLiteral c)

/-- R76: of the 256 values of `PAR`, 247 are reserved, and they are exactly those that decode to nothing: `V = 0` and not
EMPTY, or `V = 1` and none of the eight codes. -/
def Obligations.ReservedWordsAre247 : Prop :=
  ((List.range 256).filter fun n => !parWf (BitVec.ofNat 8 n)).length = 247 ∧
  (∀ w : Byte, parWf w = false ↔ decode (.par w) = .rejected (.reservedPar w)) ∧
  (∀ w : Byte, parWf w = false ↔
    (parV w = false ∧ w ≠ 0x00) ∨ (parV w = true ∧ ∀ a : PendingAction, w ≠ encAction a))

/-! ### The Pending-Action Register (spec/41_pending_action.md) -/

/-- R131: `stage` writes the whole word whatever `PAR` held, changes nothing else and answers true. -/
def Obligations.StageOverwrites : Prop :=
  ∀ (a : PendingAction) (s : State),
    stage a s = { s with par := encAction a } ∧ tryStage a s = (true, { s with par := encAction a })

/-- R132: the drain of EMPTY answers none, of an action answers it with `PAR` cleared and nothing else changed, of a
reserved word raises the model fault. -/
def Obligations.DrainReadsAndClears : Prop :=
  ∀ s : State,
    (s.par = 0x00 → drain s = .none) ∧
    (∀ a : PendingAction, s.par = encAction a → drain s = .action a { s with par := 0x00 }) ∧
    (parWf s.par = false → drain s = .reserved ∧
      (s.ds = .idle → ∀ p : MaskedEdge, takeTurn p .dispatcher s = .fault .reservedPar))

/-- R59, R130, R134: along every run `PAR` is the word of a single-slot mailbox that every stage overwrites and every
drain empties. -/
def Obligations.ParIsSingleSlotMailbox : Prop :=
  ∀ (p : MaskedEdge) (ts : List Turn) (s s' : State) (slot : Option PendingAction),
    s.par = slotWord slot → runTurns p ts s = .next s' → s'.par = slotWord (slotAlong p ts s slot)

/-- R136: with both edges pending, both orders of the two services are runs, and `PAR` ends with the action of the one
that stepped last. -/
def Obligations.BothServiceOrdersAdmitted : Prop :=
  ∀ (p : MaskedEdge) (s : State), s.pendA = true → s.pendF = true → s.imask = false →
    runTurns p [.activeEdgeService, .faultEdgeService] s =
      .next { s with pendA := false, pendF := false, par := if s.fr = 0x00 then 0xC1 else 0xC2 } ∧
    runTurns p [.faultEdgeService, .activeEdgeService] s =
      .next { s with pendA := false, pendF := false, par := 0xC0 }

/-- R137: while `imask = 1` no producer has a step, so lines stay in `rxq` and pending bits stay set. -/
def Obligations.MaskBlocksEveryProducer : Prop :=
  ∀ (p : MaskedEdge) (s : State), s.imask = true →
    takeTurn p .lineDecoder s = .next s ∧ takeTurn p .activeEdgeService s = .next s ∧
    takeTurn p .faultEdgeService s = .next s ∧ (∀ c : Command, exec (Instr.ofLine c) s = .next s)

/-- Entry 5, from R13 and R201: a turn given to an agent whose step is not enabled changes nothing. This is the model's
reading of an agent that has no step. -/
def Obligations.TurnWithoutEnabledStepChangesNothing : Prop :=
  ∀ (p : MaskedEdge) (t : Turn) (s : State), turnEnabled t s = false → takeTurn p t s = .next s

/-! ### The Line Decoder (spec/42_command_decoder.md) -/

/-- R157: with a line at the head of `rxq` and no mask, the step consumes that line, stages its command if it has one,
and changes nothing else. -/
def Obligations.LineDecoderStep : Prop :=
  ∀ (p : MaskedEdge) (s : State) (line : Line) (rest : List Line), s.rxq = line :: rest → s.imask = false →
    (∀ c : Command, decodeCommand line = some c →
      takeTurn p .lineDecoder s = .next { s with rxq := rest, par := encAction (.command c) }) ∧
    (decodeCommand line = none → takeTurn p .lineDecoder s = .next { s with rxq := rest })

/-- R151 to R155 with R157: each of the five literals at the head of `rxq` is consumed and leaves its PAR word. -/
def Obligations.CommandLinesStageTheirWords : Prop :=
  ∀ (s : State) (rest : List Line), s.imask = false →
    (s.rxq = [0x52, 0x45, 0x53, 0x45, 0x54, 0x3F] :: rest →
      exec .lineReset s = .next { s with rxq := rest, par := 0x80 }) ∧
    (s.rxq = [0x53, 0x54, 0x41, 0x54, 0x55, 0x53, 0x3F] :: rest →
      exec .lineStatus s = .next { s with rxq := rest, par := 0x81 }) ∧
    (s.rxq = [0x46, 0x41, 0x55, 0x4C, 0x54, 0x5F, 0x52, 0x45, 0x47, 0x3F] :: rest →
      exec .lineFaultReg s = .next { s with rxq := rest, par := 0x82 }) ∧
    (s.rxq = [0x44, 0x49, 0x53, 0x41, 0x42, 0x4C, 0x45, 0x3F] :: rest →
      exec .lineDisable s = .next { s with rxq := rest, par := 0x83 }) ∧
    (s.rxq = [0x52, 0x45, 0x4C, 0x49, 0x41, 0x4C, 0x4F, 0x4B, 0x3F] :: rest →
      exec .lineRelialok s = .next { s with rxq := rest, par := 0x84 })

/-! ### The latch, the edge detectors and the Event Classifier (spec/43_event_classifier.md) -/

/-- R170, R171: `TRIP(t)` sets the bits of `t` in `FR`, `RSTOK` clears `FR`, and neither changes anything else. -/
def Obligations.LatchInputsWriteTheLatch : Prop :=
  ∀ (p : MaskedEdge) (s : State),
    (∀ t : Byte, takeTurn p (.env (.trip t)) s = .next { s with fr := s.fr ||| t }) ∧
    takeTurn p (.env .rstok) s = .next { s with fr := 0x00 }

/-- R28, R172: after any run `FR` is what the environment's `TRIP` and `RSTOK` inputs alone make of it (and a power-up's
draw, R272). -/
def Obligations.LatchFollowsOnlyItsInputs : Prop :=
  ∀ (p : MaskedEdge) (ts : List Turn) (s s' : State),
    runTurns p ts s = .next s' → s'.fr = latchAfter ts s.fr

/-- R173, R175, R182: the environment step that sets `IA`: a rising edge sets `pend_a` while unmasked or under
`Deferred`; any other write of `IA` leaves it. -/
def Obligations.ActiveEdgeDetection : Prop :=
  ∀ (p : MaskedEdge) (new : Bool) (s : State),
    (s.ia = false → new = true → s.imask = false ∨ p = .deferred →
      takeTurn p (.env (.setIa new)) s = .next { s with ia := new, pendA := true }) ∧
    (¬(s.ia = false ∧ new = true ∧ (s.imask = false ∨ p = .deferred)) →
      takeTurn p (.env (.setIa new)) s = .next { s with ia := new })

/-- R174, R175, R182: the environment step that sets `FL`: a rising edge sets `pend_f` while unmasked or under
`Deferred`; any other write of `FL` leaves it. -/
def Obligations.FaultEdgeDetection : Prop :=
  ∀ (p : MaskedEdge) (new : Bool) (s : State),
    (s.fl = false → new = true → s.imask = false ∨ p = .deferred →
      takeTurn p (.env (.setFl new)) s = .next { s with fl := new, pendF := true }) ∧
    (¬(s.fl = false ∧ new = true ∧ (s.imask = false ∨ p = .deferred)) →
      takeTurn p (.env (.setFl new)) s = .next { s with fl := new })

/-- R177: the Active-Edge Service clears `pend_a` and stages `ManualReset` (0xC0), whatever `IA` is. -/
def Obligations.ActiveEdgeServiceStagesManualReset : Prop :=
  ∀ (p : MaskedEdge) (s : State), s.pendA = true → s.imask = false →
    takeTurn p .activeEdgeService s = .next { s with pendA := false, par := 0xC0 }

/-- R178: the Fault-Edge Service clears `pend_f` and stages `ManualDisable` (0xC1) if `FR` is all-zero, `Fault` (0xC2)
otherwise. -/
def Obligations.FaultEdgeServiceClassifies : Prop :=
  ∀ (p : MaskedEdge) (s : State), s.pendF = true → s.imask = false →
    (s.fr = 0x00 → takeTurn p .faultEdgeService s = .next { s with pendF := false, par := 0xC1 }) ∧
    (s.fr ≠ 0x00 → takeTurn p .faultEdgeService s = .next { s with pendF := false, par := 0xC2 })

/-- R38: the environment steps on the queue and on the levels without an edge detector change their own element
only. -/
def Obligations.EnvironmentWritesItsOwnElements : Prop :=
  ∀ (p : MaskedEdge) (s : State),
    (∀ line, takeTurn p (.env (.rx line)) s = .next { s with rxq := s.rxq ++ [line] }) ∧
    (∀ v, takeTurn p (.env (.setEn v)) s = .next { s with en := v }) ∧
    (∀ v, takeTurn p (.env (.setSt v)) s = .next { s with st := v })

/-! ### The Dispatcher (spec/44_dispatcher.md) -/

/-- R201: in `Idle`, EMPTY gives no step; an action in `PAR` is drained in one step, whatever `imask` is, and `ds` becomes
`Proc(a, 0)`; under the block's invariant `imask` is 0 there. -/
def Obligations.DrainStepInIdle : Prop :=
  ∀ s : State, s.ds = .idle →
    (s.par = 0x00 → ∀ p : MaskedEdge, takeTurn p .dispatcher s = .next s) ∧
    (∀ a : PendingAction, s.par = encAction a →
      exec (Instr.ofAction a) s = .next { s with par := 0x00, ds := startOf a } ∧
      ∀ p : MaskedEdge, takeTurn p .dispatcher s = .next { s with par := 0x00, ds := startOf a }) ∧
    (BlockInv s → s.imask = false)

/-- R132, R201: EMPTY changes nothing. -/
def Obligations.EmptyHasNoEffect : Prop :=
  ∀ s : State, exec .empty s = .next s

/-- R205: the five steps of `Reset`. -/
def Obligations.ResetActionSteps : Prop :=
  ∀ s : State,
    (s.ds = .reset 0 → s.ia = true →
      exec .reset s = .next { s with obs := s.obs ++ [.line (replyText .active)], ds := .idle }) ∧
    (s.ds = .reset 0 → s.ia = false → exec .reset s = .next { s with ds := .reset 1 }) ∧
    (s.ds = .reset 1 → exec .reset s = .next { s with obs := s.obs ++ [.pulse .reset], ds := .reset 2 }) ∧
    (s.ds = .reset 2 → s.ia = true →
      exec .reset s = .next { s with obs := s.obs ++ [.line (replyText .resetSuccess)], ds := .idle }) ∧
    (s.ds = .reset 2 → s.ia = false → exec .reset s = .next { s with ds := .reset 3 }) ∧
    (s.ds = .reset 3 → exec .reset s = .next { s with tmpEn := s.en, ds := .reset 4 }) ∧
    (s.ds = .reset 4 → exec .reset s =
      .next { s with obs := s.obs ++ [.line (replyText (.resetFail (packCsw s.tmpEn s.st)))], ds := .idle })

/-- R206: the two steps of `Status`. -/
def Obligations.StatusActionSteps : Prop :=
  ∀ s : State,
    (s.ds = .status 0 → exec .status s = .next { s with tmpEn := s.en, ds := .status 1 }) ∧
    (s.ds = .status 1 → exec .status s =
      .next { s with obs := s.obs ++ [.line (replyText (.status (packCsw s.tmpEn s.st)))], ds := .idle })

/-- R207: `FaultRegister` reports `FR` and leaves it. -/
def Obligations.FaultRegisterActionReportsLatch : Prop :=
  ∀ s : State, s.ds = .faultRegister →
    exec .faultRegister s = .next { s with obs := s.obs ++ [.line (replyText (.faultReg s.fr))], ds := .idle }

/-- R208: the five steps of `Disable`, with interrupts suppressed around the pulse and no reply on failure. -/
def Obligations.DisableActionSteps : Prop :=
  ∀ s : State,
    (s.ds = .disable 0 → s.ia = false →
      exec .disable s = .next { s with obs := s.obs ++ [.line (replyText .deactive)], ds := .idle }) ∧
    (s.ds = .disable 0 → s.ia = true → exec .disable s = .next { s with ds := .disable 1 }) ∧
    (s.ds = .disable 1 → exec .disable s = .next { s with imask := true, ds := .disable 2 }) ∧
    (s.ds = .disable 2 → exec .disable s =
      .next { s with obs := s.obs ++ [.pulse .disable], ds := .disable 3 }) ∧
    (s.ds = .disable 3 → exec .disable s = .next { s with imask := false, ds := .disable 4 }) ∧
    (s.ds = .disable 4 → s.ia = false →
      exec .disable s = .next { s with obs := s.obs ++ [.line (replyText .disableSuccess)], ds := .idle }) ∧
    (s.ds = .disable 4 → s.ia = true → exec .disable s = .next { s with ds := .idle })

/-- R209: `Model` replies exactly the 8 bytes `OCTO-LOK`. -/
def Obligations.ModelActionReportsIdentity : Prop :=
  ∀ s : State, s.ds = .model → exec .model s =
    .next { s with obs := s.obs ++ [.line [0x4F, 0x43, 0x54, 0x4F, 0x2D, 0x4C, 0x4F, 0x4B]], ds := .idle }

/-- R210: `ManualReset` replies `MANUAL_RESET`, whatever `IA` is. -/
def Obligations.ManualResetActionReplies : Prop :=
  ∀ s : State, s.ds = .manualReset → exec .manualReset s =
    .next { s with obs := s.obs ++ [.line (replyText .manualReset)], ds := .idle }

/-- R211: `ManualDisable` replies `MANUAL_DISABLE`, whatever `FR` is. -/
def Obligations.ManualDisableActionReplies : Prop :=
  ∀ s : State, s.ds = .manualDisable → exec .manualDisable s =
    .next { s with obs := s.obs ++ [.line (replyText .manualDisable)], ds := .idle }

/-- R212: `Fault` replies `FAULT` with `FR` as it is at that step. -/
def Obligations.FaultActionReportsLatch : Prop :=
  ∀ s : State, s.ds = .fault → exec .fault s =
    .next { s with obs := s.obs ++ [.line (replyText (.fault s.fr))], ds := .idle }

/-- Entry 7, from R204: while the Dispatcher executes another action, or `PAR` holds another action, an action has no
step. This is the model's reading of an action that is not the current one. -/
def Obligations.OtherActionsWait : Prop :=
  ∀ (a b : PendingAction) (s : State), b ≠ a →
    (actionOf s.ds = some b → exec (Instr.ofAction a) s = .next s) ∧
    (s.ds = .idle → s.par = encAction b → exec (Instr.ofAction a) s = .next s)

/-- R13, R157, R201: a step runs the turn the schedule gives; the Dispatcher's turn is `exec` of the instruction it is
in, or of the one that `PAR` decodes to; the Line Decoder's turn is `exec` of the instruction that the head of `rxq`
decodes to. The schedule itself is the model's (entry 4). -/
def Obligations.StepRunsTheDecodedInstruction : Prop :=
  ∀ s : State,
    (∀ t rest, s.agenda = t :: rest →
      step s = takeTurn Config.maskedEdge t { s with agenda := rest }) ∧
    (s.agenda = [] →
      step s = takeTurn Config.maskedEdge (Config.freeTurn s.draws) { s with draws := s.draws + 1 }) ∧
    (∀ (p : MaskedEdge) (i : Instr), s.ds = .idle → decode (.par s.par) = .instr i →
      takeTurn p .dispatcher s = exec i s) ∧
    (∀ (p : MaskedEdge) (a : PendingAction), actionOf s.ds = some a →
      takeTurn p .dispatcher s = exec (Instr.ofAction a) s) ∧
    (∀ (p : MaskedEdge) (i : Instr) (line : Line) (rest : List Line), s.rxq = line :: rest →
      decode (.line line) = .instr i → takeTurn p .lineDecoder s = exec i s)

/-- R39, R202: the frame of the eight actions. -/
def Obligations.ActionsFrame : Prop :=
  ∀ (a : PendingAction) (s t : State), exec (Instr.ofAction a) s = .next t →
    t.fr = s.fr ∧ t.pendA = s.pendA ∧ t.pendF = s.pendF ∧ t.rxq = s.rxq ∧ t.en = s.en ∧ t.st = s.st ∧
    t.ia = s.ia ∧ t.fl = s.fl ∧ t.agenda = s.agenda ∧ t.draws = s.draws ∧
    (s.ds ≠ .idle → t.par = s.par) ∧
    (s.ds ≠ .disable 1 → s.ds ≠ .disable 3 → t.imask = s.imask) ∧
    (s.ds ≠ .reset 3 → s.ds ≠ .status 0 → t.tmpEn = s.tmpEn) ∧
    (s.ds = .idle → t.obs = s.obs) ∧
    ∃ added, t.obs = s.obs ++ added ∧ added.length ≤ 1

/-- R39, R157, R160: the frame of the five lines: only `PAR` and `rxq` change, nothing is emitted, and at most the head of
`rxq` is consumed. -/
def Obligations.LinesFrame : Prop :=
  ∀ (c : Command) (s t : State), exec (Instr.ofLine c) s = .next t →
    t = { s with par := t.par, rxq := t.rxq } ∧
    ((t.rxq = s.rxq ∧ t.par = s.par) ∨
      (s.rxq = lineLiteral c :: t.rxq ∧ t.par = encAction (.command c)))

/-- R39 (writers): which turns can change which element, power-up aside. -/
def Obligations.OnlyTheOwnersWrite : Prop :=
  ∀ (p : MaskedEdge) (t : Turn) (s s' : State), isPowerUp t = false → takeTurn p t s = .next s' →
    (s'.fr ≠ s.fr → t = .env .rstok ∨ ∃ v, t = .env (.trip v)) ∧
    (s'.par ≠ s.par → t = .lineDecoder ∨ t = .activeEdgeService ∨ t = .faultEdgeService ∨ t = .dispatcher) ∧
    (s'.ds ≠ s.ds ∨ s'.tmpEn ≠ s.tmpEn ∨ s'.imask ≠ s.imask ∨ s'.obs ≠ s.obs → t = .dispatcher) ∧
    (s'.pendA ≠ s.pendA → t = .activeEdgeService ∨ t = .env (.setIa true)) ∧
    (s'.pendF ≠ s.pendF → t = .faultEdgeService ∨ t = .env (.setFl true)) ∧
    (s'.rxq ≠ s.rxq → t = .lineDecoder ∨ ∃ line, t = .env (.rx line)) ∧
    (s'.en ≠ s.en → ∃ v, t = .env (.setEn v)) ∧ (s'.st ≠ s.st → ∃ v, t = .env (.setSt v)) ∧
    (s'.ia ≠ s.ia → ∃ v, t = .env (.setIa v)) ∧ (s'.fl ≠ s.fl → ∃ v, t = .env (.setFl v)) ∧
    s'.agenda = s.agenda ∧ s'.draws = s.draws

/-- R35: no step removes an element of the output history. -/
def Obligations.OutputHistoryOnlyGrows : Prop :=
  ∀ (p : MaskedEdge) (ts : List Turn) (s s' : State), noPowerUp ts = true →
    runTurns p ts s = .next s' → s.obs <+: s'.obs

/-- R216: from every `Proc(a, k)` the Dispatcher is in `Idle` within five of its own turns, whatever the other agents and
the environment do between them. -/
def Obligations.ActionsEndWithinFiveOwnSteps : Prop :=
  ∀ (p : MaskedEdge) (ts : List Turn) (s : State), s.ds ≠ .idle → 5 ≤ ts.count .dispatcher →
    ∃ n s', n ≤ ts.length ∧ runTurns p (ts.take n) s = .next s' ∧ s'.ds = .idle

/-- R215, with the pulse bound of 44_dispatcher: from `Proc(a, 0)` to the first `Idle`, an action makes at most one pulse
and emits exactly one reply; `Disable` emits none exactly when `IA = 1` at its last step. -/
def Obligations.EveryActionRepliesAtMostOnce : Prop :=
  ∀ (p : MaskedEdge) (a : PendingAction) (ts : List Turn) (s s' : State), noPowerUp ts = true →
    s.ds = startOf a → runTurns p ts s = .next s' → s'.ds = .idle →
    (∀ n u, n < ts.length → runTurns p (ts.take n) s = .next u → u.ds ≠ .idle) →
    ∃ h, s'.obs = s.obs ++ h ∧ (pulsesOf h).length ≤ 1 ∧ (repliesOf h).length ≤ 1 ∧
      (a ≠ .command .disable → (repliesOf h).length = 1) ∧
      (a = .command .disable → (repliesOf h = [] ↔ s'.ia = true))

/-- R57, E3: two Status actions with no environment step from the first to the end of the second emit equal lines. -/
def Obligations.StatusIsIdempotent : Prop :=
  ∀ (p : MaskedEdge) (between : List Turn) (s u s1 u1 : State), (∀ t ∈ between, t ∈ blockTurns) →
    s.ds = .status 0 → runTurns p [.dispatcher, .dispatcher] s = .next u →
    runTurns p between u = .next s1 → s1.ds = .status 0 →
    runTurns p [.dispatcher, .dispatcher] s1 = .next u1 →
    ∃ line, u.obs = s.obs ++ [.line line] ∧ u1.obs = s1.obs ++ [.line line]

/-! ### Reset and hazards (spec/70_reset_and_hazards.md) -/

/-- R41, R271: what reset leaves, for the elements whose reset value the spec gives. The values of the others in
`State.reset` are the model's (entries 1, 2, 3) and are not stated. -/
def Obligations.ResetValues : Prop :=
  State.reset.par = 0x00 ∧ State.reset.ds = .idle ∧ State.reset.imask = false ∧
  State.reset.pendA = false ∧ State.reset.pendF = false ∧ State.reset.obs = [] ∧ State.reset.rxq = []

/-- R41, R270, R272: a power-up puts every element at its reset value, whatever the state before it; `FR`, `tmp_en` and
the four levels take the draw, any value; no edge is raised, and the Dispatcher has no step. That power-up is a turn,
with the draw in it, is the model's choice (entry 9). -/
def Obligations.PowerUpResetsTheBlock : Prop :=
  ∀ (p : MaskedEdge) (d : PowerUpDraws) (s : State),
    ∃ s', takeTurn p (.powerUp d) s = .next s' ∧
      s'.par = 0x00 ∧ s'.ds = .idle ∧ s'.imask = false ∧ s'.pendA = false ∧ s'.pendF = false ∧
      s'.obs = [] ∧ s'.rxq = [] ∧
      s'.fr = d.fr ∧ s'.tmpEn = d.tmpEn ∧ s'.en = d.en ∧ s'.st = d.st ∧ s'.ia = d.ia ∧ s'.fl = d.fl ∧
      takeTurn p .dispatcher s' = .next s'

/-- R275: the payload of `FAULT` is `FR` at the action: a `TRIP` before it adds bits, an `RSTOK` before it gives
zeros. -/
def Obligations.FaultPayloadIsReadLate : Prop :=
  ∀ (p : MaskedEdge) (t : Byte) (s : State), s.ds = .fault →
    runTurns p [.env (.trip t), .dispatcher] s =
      .next { s with fr := s.fr ||| t, obs := s.obs ++ [.line (replyText (.fault (s.fr ||| t)))], ds := .idle } ∧
    runTurns p [.env .rstok, .dispatcher] s =
      .next { s with fr := 0x00, obs := s.obs ++ [.line (replyText (.fault 0x00))], ds := .idle }

/-- R276: the classification is by `FR` at the service: a `TRIP` of some channel between edge and service stages `Fault`,
an `RSTOK` stages `ManualDisable`. -/
def Obligations.ClassificationIsReadLate : Prop :=
  ∀ (p : MaskedEdge) (t : Byte) (s : State), s.fl = false → s.imask = false → t ≠ 0x00 →
    runTurns p [.env (.setFl true), .env (.trip t), .faultEdgeService] s =
      .next { s with fl := true, fr := s.fr ||| t, pendF := false, par := 0xC2 } ∧
    runTurns p [.env (.setFl true), .env .rstok, .faultEdgeService] s =
      .next { s with fl := true, fr := 0x00, pendF := false, par := 0xC1 }

/-- R58, R277: a status payload pairs the `EN` of one step with the `ST` of the next, whatever the environment writes
between them. -/
def Obligations.StatusPayloadMixesTwoInstants : Prop :=
  ∀ (p : MaskedEdge) (e v : Byte) (s : State),
    (s.ds = .status 0 →
      runTurns p [.dispatcher, .env (.setEn e), .env (.setSt v), .dispatcher] s =
        .next { s with en := e, st := v, tmpEn := s.en, ds := .idle,
                       obs := s.obs ++ [.line (replyText (.status (packCsw s.en v)))] }) ∧
    (s.ds = .reset 3 →
      runTurns p [.dispatcher, .env (.setEn e), .env (.setSt v), .dispatcher] s =
        .next { s with en := e, st := v, tmpEn := s.en, ds := .idle,
                       obs := s.obs ++ [.line (replyText (.resetFail (packCsw s.en v)))] })

/-- R278: a reset pulse that makes the interlock active gives `RESET_SUCCESS` and then `MANUAL_RESET`, and the service may
run before or after the Reset action's step 2. -/
def Obligations.RemoteResetEchoes : Prop :=
  ∀ (p : MaskedEdge) (s : State), s.ds = .reset 1 → s.ia = false → s.imask = false →
    ∀ final, final = { s with
        ia := true, pendA := false, par := 0x00, ds := DispState.idle,
        obs := s.obs ++ [.pulse .reset, .line (replyText .resetSuccess), .line (replyText .manualReset)] } →
    runTurns p [.dispatcher, .env (.setIa true), .activeEdgeService, .dispatcher, .dispatcher, .dispatcher] s =
      .next final ∧
    runTurns p [.dispatcher, .env (.setIa true), .dispatcher, .activeEdgeService, .dispatcher, .dispatcher] s =
      .next final

/-- R279: a disable pulse that makes `FL` rise while masked gives `MANUAL_DISABLE` after the reply under `Deferred` with
`FR` all-zero, and no event under `Dropped`. -/
def Obligations.RemoteDisableEchoes : Prop :=
  ∀ s : State, s.ds = .disable 2 → s.imask = true → s.fl = false → s.fr = 0x00 →
    runTurns .deferred [.dispatcher, .env (.setIa false), .env (.setFl true), .dispatcher, .faultEdgeService,
        .dispatcher, .dispatcher, .dispatcher] s =
      .next { s with
        ia := false, fl := true, imask := false, pendF := false, par := 0x00, ds := .idle,
        obs := s.obs ++ [.pulse .disable, .line (replyText .disableSuccess), .line (replyText .manualDisable)] } ∧
    (s.pendF = false →
      runTurns .dropped [.dispatcher, .env (.setIa false), .env (.setFl true), .dispatcher, .faultEdgeService,
          .dispatcher] s =
        .next { s with
          ia := false, fl := true, imask := false, ds := .idle,
          obs := s.obs ++ [.pulse .disable, .line (replyText .disableSuccess)] })

/-- R280: in the masked window no turn but a power-up changes `PAR`, loses a line of `rxq` or clears a pending bit. -/
def Obligations.MaskedWindowLosesNothing : Prop :=
  ∀ (p : MaskedEdge) (t : Turn) (s s' : State), s.imask = true → s.ds ≠ .idle → isPowerUp t = false →
    takeTurn p t s = .next s' →
    s'.par = s.par ∧ s.rxq <+: s'.rxq ∧ (s.pendA = true → s'.pendA = true) ∧ (s.pendF = true → s'.pendF = true)

/-- R31, R202: outside the two steps that read it, the value in `tmp_en` is dead: whatever it is, every run ends in the same
way and leaves everything else equal. -/
def Obligations.HeldEnableIsDeadOutsideItsReaders : Prop :=
  ∀ (p : MaskedEdge) (ts : List Turn) (s : State) (v : Byte), s.ds ≠ .reset 4 → s.ds ≠ .status 1 →
    (∀ s1, runTurns p ts s = .next s1 →
      ∃ v1, runTurns p ts { s with tmpEn := v } = .next { s1 with tmpEn := v1 }) ∧
    (∀ f, runTurns p ts s = .fault f → runTurns p ts { s with tmpEn := v } = .fault f)

/-- R284 with R216: under a weakly fair schedule, every action being executed reaches `Idle`. What the premise owes a
producer that is masked again and again is the model's choice (entry 26). -/
def Obligations.FairSchedulesEndEveryAction : Prop :=
  ∀ (p : MaskedEdge) (sched : Nat → Turn) (s : State), WeaklyFair p sched s → s.ds ≠ .idle →
    ∃ n s', runTurns p (firstTurns sched n) s = .next s' ∧ s'.ds = .idle

/-! ### The invariant (R32, R75, R76, R78) -/

/-- The invariant holds at reset, and after every power-up from any state. -/
def Obligations.InvariantHoldsAtReset : Prop :=
  BlockInv State.reset ∧ ∀ (d : PowerUpDraws) (s : State), BlockInv (powerUp d s)

/-- Every step keeps the invariant: `PAR` holds no reserved word, the mask is on exactly during the Disable pulse, and
only replies of R78 and pulses are ever put out. -/
def Obligations.EveryStepKeepsTheInvariant : Prop :=
  ∀ (p : MaskedEdge) (s s' : State), BlockInv s → stepWith p s = .next s' → BlockInv s'

/-- R76, R216, R242, R243: from a state that meets the invariant, no run faults or is refused, whatever the turns. -/
def Obligations.NoRunReachesAFault : Prop :=
  ∀ (p : MaskedEdge) (ts : List Turn) (s : State), BlockInv s → ∃ s', runTurns p ts s = .next s' ∧ BlockInv s'

/-! ### The link (R24, R80, R159) -/

/-- R24, R80: the outbound wire carries each reply line in order with the terminator; R159, entry 18: a stripped line is
the text before its terminator, whatever the terminator is. -/
def Obligations.TerminatorsFrameTheLines : Prop :=
  (∀ (eol text : Line) (h : List Obs), wireBytes eol (h ++ [.line text]) = wireBytes eol h ++ (text ++ eol)) ∧
  (∀ (eol : Line) (x : Actuator) (h : List Obs), wireBytes eol (h ++ [.pulse x]) = wireBytes eol h) ∧
  (∀ eolIn text : Line, stripTerminator eolIn (text ++ eolIn) = some text)
end

