-- ==== Sys2Proof/Laws/State.lean ====
section
/-! SUPPORT. What each update of one field of State leaves in every field: one lemma per field per update. -/

namespace Sys2Proof.Machine

/-! ### `setFr` -/

@[simp] theorem State.setFr_fr (v : Byte) (s : State) : (s.setFr v).fr = v := rfl
@[simp] theorem State.setFr_par (v : Byte) (s : State) : (s.setFr v).par = s.par := rfl
@[simp] theorem State.setFr_ds (v : Byte) (s : State) : (s.setFr v).ds = s.ds := rfl
@[simp] theorem State.setFr_tmpEn (v : Byte) (s : State) : (s.setFr v).tmpEn = s.tmpEn := rfl
@[simp] theorem State.setFr_imask (v : Byte) (s : State) : (s.setFr v).imask = s.imask := rfl
@[simp] theorem State.setFr_pendA (v : Byte) (s : State) : (s.setFr v).pendA = s.pendA := rfl
@[simp] theorem State.setFr_pendF (v : Byte) (s : State) : (s.setFr v).pendF = s.pendF := rfl
@[simp] theorem State.setFr_obs (v : Byte) (s : State) : (s.setFr v).obs = s.obs := rfl
@[simp] theorem State.setFr_rxq (v : Byte) (s : State) : (s.setFr v).rxq = s.rxq := rfl
@[simp] theorem State.setFr_en (v : Byte) (s : State) : (s.setFr v).en = s.en := rfl
@[simp] theorem State.setFr_st (v : Byte) (s : State) : (s.setFr v).st = s.st := rfl
@[simp] theorem State.setFr_ia (v : Byte) (s : State) : (s.setFr v).ia = s.ia := rfl
@[simp] theorem State.setFr_fl (v : Byte) (s : State) : (s.setFr v).fl = s.fl := rfl
@[simp] theorem State.setFr_agenda (v : Byte) (s : State) : (s.setFr v).agenda = s.agenda := rfl
@[simp] theorem State.setFr_draws (v : Byte) (s : State) : (s.setFr v).draws = s.draws := rfl

/-! ### `setPar` -/

@[simp] theorem State.setPar_fr (v : Byte) (s : State) : (s.setPar v).fr = s.fr := rfl
@[simp] theorem State.setPar_par (v : Byte) (s : State) : (s.setPar v).par = v := rfl
@[simp] theorem State.setPar_ds (v : Byte) (s : State) : (s.setPar v).ds = s.ds := rfl
@[simp] theorem State.setPar_tmpEn (v : Byte) (s : State) : (s.setPar v).tmpEn = s.tmpEn := rfl
@[simp] theorem State.setPar_imask (v : Byte) (s : State) : (s.setPar v).imask = s.imask := rfl
@[simp] theorem State.setPar_pendA (v : Byte) (s : State) : (s.setPar v).pendA = s.pendA := rfl
@[simp] theorem State.setPar_pendF (v : Byte) (s : State) : (s.setPar v).pendF = s.pendF := rfl
@[simp] theorem State.setPar_obs (v : Byte) (s : State) : (s.setPar v).obs = s.obs := rfl
@[simp] theorem State.setPar_rxq (v : Byte) (s : State) : (s.setPar v).rxq = s.rxq := rfl
@[simp] theorem State.setPar_en (v : Byte) (s : State) : (s.setPar v).en = s.en := rfl
@[simp] theorem State.setPar_st (v : Byte) (s : State) : (s.setPar v).st = s.st := rfl
@[simp] theorem State.setPar_ia (v : Byte) (s : State) : (s.setPar v).ia = s.ia := rfl
@[simp] theorem State.setPar_fl (v : Byte) (s : State) : (s.setPar v).fl = s.fl := rfl
@[simp] theorem State.setPar_agenda (v : Byte) (s : State) : (s.setPar v).agenda = s.agenda := rfl
@[simp] theorem State.setPar_draws (v : Byte) (s : State) : (s.setPar v).draws = s.draws := rfl

/-! ### `setDs` -/

@[simp] theorem State.setDs_fr (v : DispState) (s : State) : (s.setDs v).fr = s.fr := rfl
@[simp] theorem State.setDs_par (v : DispState) (s : State) : (s.setDs v).par = s.par := rfl
@[simp] theorem State.setDs_ds (v : DispState) (s : State) : (s.setDs v).ds = v := rfl
@[simp] theorem State.setDs_tmpEn (v : DispState) (s : State) : (s.setDs v).tmpEn = s.tmpEn := rfl
@[simp] theorem State.setDs_imask (v : DispState) (s : State) : (s.setDs v).imask = s.imask := rfl
@[simp] theorem State.setDs_pendA (v : DispState) (s : State) : (s.setDs v).pendA = s.pendA := rfl
@[simp] theorem State.setDs_pendF (v : DispState) (s : State) : (s.setDs v).pendF = s.pendF := rfl
@[simp] theorem State.setDs_obs (v : DispState) (s : State) : (s.setDs v).obs = s.obs := rfl
@[simp] theorem State.setDs_rxq (v : DispState) (s : State) : (s.setDs v).rxq = s.rxq := rfl
@[simp] theorem State.setDs_en (v : DispState) (s : State) : (s.setDs v).en = s.en := rfl
@[simp] theorem State.setDs_st (v : DispState) (s : State) : (s.setDs v).st = s.st := rfl
@[simp] theorem State.setDs_ia (v : DispState) (s : State) : (s.setDs v).ia = s.ia := rfl
@[simp] theorem State.setDs_fl (v : DispState) (s : State) : (s.setDs v).fl = s.fl := rfl
@[simp] theorem State.setDs_agenda (v : DispState) (s : State) : (s.setDs v).agenda = s.agenda := rfl
@[simp] theorem State.setDs_draws (v : DispState) (s : State) : (s.setDs v).draws = s.draws := rfl

/-! ### `setTmpEn` -/

@[simp] theorem State.setTmpEn_fr (v : Byte) (s : State) : (s.setTmpEn v).fr = s.fr := rfl
@[simp] theorem State.setTmpEn_par (v : Byte) (s : State) : (s.setTmpEn v).par = s.par := rfl
@[simp] theorem State.setTmpEn_ds (v : Byte) (s : State) : (s.setTmpEn v).ds = s.ds := rfl
@[simp] theorem State.setTmpEn_tmpEn (v : Byte) (s : State) : (s.setTmpEn v).tmpEn = v := rfl
@[simp] theorem State.setTmpEn_imask (v : Byte) (s : State) : (s.setTmpEn v).imask = s.imask := rfl
@[simp] theorem State.setTmpEn_pendA (v : Byte) (s : State) : (s.setTmpEn v).pendA = s.pendA := rfl
@[simp] theorem State.setTmpEn_pendF (v : Byte) (s : State) : (s.setTmpEn v).pendF = s.pendF := rfl
@[simp] theorem State.setTmpEn_obs (v : Byte) (s : State) : (s.setTmpEn v).obs = s.obs := rfl
@[simp] theorem State.setTmpEn_rxq (v : Byte) (s : State) : (s.setTmpEn v).rxq = s.rxq := rfl
@[simp] theorem State.setTmpEn_en (v : Byte) (s : State) : (s.setTmpEn v).en = s.en := rfl
@[simp] theorem State.setTmpEn_st (v : Byte) (s : State) : (s.setTmpEn v).st = s.st := rfl
@[simp] theorem State.setTmpEn_ia (v : Byte) (s : State) : (s.setTmpEn v).ia = s.ia := rfl
@[simp] theorem State.setTmpEn_fl (v : Byte) (s : State) : (s.setTmpEn v).fl = s.fl := rfl
@[simp] theorem State.setTmpEn_agenda (v : Byte) (s : State) : (s.setTmpEn v).agenda = s.agenda := rfl
@[simp] theorem State.setTmpEn_draws (v : Byte) (s : State) : (s.setTmpEn v).draws = s.draws := rfl

/-! ### `setImask` -/

@[simp] theorem State.setImask_fr (v : Bool) (s : State) : (s.setImask v).fr = s.fr := rfl
@[simp] theorem State.setImask_par (v : Bool) (s : State) : (s.setImask v).par = s.par := rfl
@[simp] theorem State.setImask_ds (v : Bool) (s : State) : (s.setImask v).ds = s.ds := rfl
@[simp] theorem State.setImask_tmpEn (v : Bool) (s : State) : (s.setImask v).tmpEn = s.tmpEn := rfl
@[simp] theorem State.setImask_imask (v : Bool) (s : State) : (s.setImask v).imask = v := rfl
@[simp] theorem State.setImask_pendA (v : Bool) (s : State) : (s.setImask v).pendA = s.pendA := rfl
@[simp] theorem State.setImask_pendF (v : Bool) (s : State) : (s.setImask v).pendF = s.pendF := rfl
@[simp] theorem State.setImask_obs (v : Bool) (s : State) : (s.setImask v).obs = s.obs := rfl
@[simp] theorem State.setImask_rxq (v : Bool) (s : State) : (s.setImask v).rxq = s.rxq := rfl
@[simp] theorem State.setImask_en (v : Bool) (s : State) : (s.setImask v).en = s.en := rfl
@[simp] theorem State.setImask_st (v : Bool) (s : State) : (s.setImask v).st = s.st := rfl
@[simp] theorem State.setImask_ia (v : Bool) (s : State) : (s.setImask v).ia = s.ia := rfl
@[simp] theorem State.setImask_fl (v : Bool) (s : State) : (s.setImask v).fl = s.fl := rfl
@[simp] theorem State.setImask_agenda (v : Bool) (s : State) : (s.setImask v).agenda = s.agenda := rfl
@[simp] theorem State.setImask_draws (v : Bool) (s : State) : (s.setImask v).draws = s.draws := rfl

/-! ### `setPendA` -/

@[simp] theorem State.setPendA_fr (v : Bool) (s : State) : (s.setPendA v).fr = s.fr := rfl
@[simp] theorem State.setPendA_par (v : Bool) (s : State) : (s.setPendA v).par = s.par := rfl
@[simp] theorem State.setPendA_ds (v : Bool) (s : State) : (s.setPendA v).ds = s.ds := rfl
@[simp] theorem State.setPendA_tmpEn (v : Bool) (s : State) : (s.setPendA v).tmpEn = s.tmpEn := rfl
@[simp] theorem State.setPendA_imask (v : Bool) (s : State) : (s.setPendA v).imask = s.imask := rfl
@[simp] theorem State.setPendA_pendA (v : Bool) (s : State) : (s.setPendA v).pendA = v := rfl
@[simp] theorem State.setPendA_pendF (v : Bool) (s : State) : (s.setPendA v).pendF = s.pendF := rfl
@[simp] theorem State.setPendA_obs (v : Bool) (s : State) : (s.setPendA v).obs = s.obs := rfl
@[simp] theorem State.setPendA_rxq (v : Bool) (s : State) : (s.setPendA v).rxq = s.rxq := rfl
@[simp] theorem State.setPendA_en (v : Bool) (s : State) : (s.setPendA v).en = s.en := rfl
@[simp] theorem State.setPendA_st (v : Bool) (s : State) : (s.setPendA v).st = s.st := rfl
@[simp] theorem State.setPendA_ia (v : Bool) (s : State) : (s.setPendA v).ia = s.ia := rfl
@[simp] theorem State.setPendA_fl (v : Bool) (s : State) : (s.setPendA v).fl = s.fl := rfl
@[simp] theorem State.setPendA_agenda (v : Bool) (s : State) : (s.setPendA v).agenda = s.agenda := rfl
@[simp] theorem State.setPendA_draws (v : Bool) (s : State) : (s.setPendA v).draws = s.draws := rfl

/-! ### `setPendF` -/

@[simp] theorem State.setPendF_fr (v : Bool) (s : State) : (s.setPendF v).fr = s.fr := rfl
@[simp] theorem State.setPendF_par (v : Bool) (s : State) : (s.setPendF v).par = s.par := rfl
@[simp] theorem State.setPendF_ds (v : Bool) (s : State) : (s.setPendF v).ds = s.ds := rfl
@[simp] theorem State.setPendF_tmpEn (v : Bool) (s : State) : (s.setPendF v).tmpEn = s.tmpEn := rfl
@[simp] theorem State.setPendF_imask (v : Bool) (s : State) : (s.setPendF v).imask = s.imask := rfl
@[simp] theorem State.setPendF_pendA (v : Bool) (s : State) : (s.setPendF v).pendA = s.pendA := rfl
@[simp] theorem State.setPendF_pendF (v : Bool) (s : State) : (s.setPendF v).pendF = v := rfl
@[simp] theorem State.setPendF_obs (v : Bool) (s : State) : (s.setPendF v).obs = s.obs := rfl
@[simp] theorem State.setPendF_rxq (v : Bool) (s : State) : (s.setPendF v).rxq = s.rxq := rfl
@[simp] theorem State.setPendF_en (v : Bool) (s : State) : (s.setPendF v).en = s.en := rfl
@[simp] theorem State.setPendF_st (v : Bool) (s : State) : (s.setPendF v).st = s.st := rfl
@[simp] theorem State.setPendF_ia (v : Bool) (s : State) : (s.setPendF v).ia = s.ia := rfl
@[simp] theorem State.setPendF_fl (v : Bool) (s : State) : (s.setPendF v).fl = s.fl := rfl
@[simp] theorem State.setPendF_agenda (v : Bool) (s : State) : (s.setPendF v).agenda = s.agenda := rfl
@[simp] theorem State.setPendF_draws (v : Bool) (s : State) : (s.setPendF v).draws = s.draws := rfl

/-! ### `setObs` -/

@[simp] theorem State.setObs_fr (v : List Obs) (s : State) : (s.setObs v).fr = s.fr := rfl
@[simp] theorem State.setObs_par (v : List Obs) (s : State) : (s.setObs v).par = s.par := rfl
@[simp] theorem State.setObs_ds (v : List Obs) (s : State) : (s.setObs v).ds = s.ds := rfl
@[simp] theorem State.setObs_tmpEn (v : List Obs) (s : State) : (s.setObs v).tmpEn = s.tmpEn := rfl
@[simp] theorem State.setObs_imask (v : List Obs) (s : State) : (s.setObs v).imask = s.imask := rfl
@[simp] theorem State.setObs_pendA (v : List Obs) (s : State) : (s.setObs v).pendA = s.pendA := rfl
@[simp] theorem State.setObs_pendF (v : List Obs) (s : State) : (s.setObs v).pendF = s.pendF := rfl
@[simp] theorem State.setObs_obs (v : List Obs) (s : State) : (s.setObs v).obs = v := rfl
@[simp] theorem State.setObs_rxq (v : List Obs) (s : State) : (s.setObs v).rxq = s.rxq := rfl
@[simp] theorem State.setObs_en (v : List Obs) (s : State) : (s.setObs v).en = s.en := rfl
@[simp] theorem State.setObs_st (v : List Obs) (s : State) : (s.setObs v).st = s.st := rfl
@[simp] theorem State.setObs_ia (v : List Obs) (s : State) : (s.setObs v).ia = s.ia := rfl
@[simp] theorem State.setObs_fl (v : List Obs) (s : State) : (s.setObs v).fl = s.fl := rfl
@[simp] theorem State.setObs_agenda (v : List Obs) (s : State) : (s.setObs v).agenda = s.agenda := rfl
@[simp] theorem State.setObs_draws (v : List Obs) (s : State) : (s.setObs v).draws = s.draws := rfl

/-! ### `setRxq` -/

@[simp] theorem State.setRxq_fr (v : List Line) (s : State) : (s.setRxq v).fr = s.fr := rfl
@[simp] theorem State.setRxq_par (v : List Line) (s : State) : (s.setRxq v).par = s.par := rfl
@[simp] theorem State.setRxq_ds (v : List Line) (s : State) : (s.setRxq v).ds = s.ds := rfl
@[simp] theorem State.setRxq_tmpEn (v : List Line) (s : State) : (s.setRxq v).tmpEn = s.tmpEn := rfl
@[simp] theorem State.setRxq_imask (v : List Line) (s : State) : (s.setRxq v).imask = s.imask := rfl
@[simp] theorem State.setRxq_pendA (v : List Line) (s : State) : (s.setRxq v).pendA = s.pendA := rfl
@[simp] theorem State.setRxq_pendF (v : List Line) (s : State) : (s.setRxq v).pendF = s.pendF := rfl
@[simp] theorem State.setRxq_obs (v : List Line) (s : State) : (s.setRxq v).obs = s.obs := rfl
@[simp] theorem State.setRxq_rxq (v : List Line) (s : State) : (s.setRxq v).rxq = v := rfl
@[simp] theorem State.setRxq_en (v : List Line) (s : State) : (s.setRxq v).en = s.en := rfl
@[simp] theorem State.setRxq_st (v : List Line) (s : State) : (s.setRxq v).st = s.st := rfl
@[simp] theorem State.setRxq_ia (v : List Line) (s : State) : (s.setRxq v).ia = s.ia := rfl
@[simp] theorem State.setRxq_fl (v : List Line) (s : State) : (s.setRxq v).fl = s.fl := rfl
@[simp] theorem State.setRxq_agenda (v : List Line) (s : State) : (s.setRxq v).agenda = s.agenda := rfl
@[simp] theorem State.setRxq_draws (v : List Line) (s : State) : (s.setRxq v).draws = s.draws := rfl

/-! ### `setEn` -/

@[simp] theorem State.setEn_fr (v : Byte) (s : State) : (s.setEn v).fr = s.fr := rfl
@[simp] theorem State.setEn_par (v : Byte) (s : State) : (s.setEn v).par = s.par := rfl
@[simp] theorem State.setEn_ds (v : Byte) (s : State) : (s.setEn v).ds = s.ds := rfl
@[simp] theorem State.setEn_tmpEn (v : Byte) (s : State) : (s.setEn v).tmpEn = s.tmpEn := rfl
@[simp] theorem State.setEn_imask (v : Byte) (s : State) : (s.setEn v).imask = s.imask := rfl
@[simp] theorem State.setEn_pendA (v : Byte) (s : State) : (s.setEn v).pendA = s.pendA := rfl
@[simp] theorem State.setEn_pendF (v : Byte) (s : State) : (s.setEn v).pendF = s.pendF := rfl
@[simp] theorem State.setEn_obs (v : Byte) (s : State) : (s.setEn v).obs = s.obs := rfl
@[simp] theorem State.setEn_rxq (v : Byte) (s : State) : (s.setEn v).rxq = s.rxq := rfl
@[simp] theorem State.setEn_en (v : Byte) (s : State) : (s.setEn v).en = v := rfl
@[simp] theorem State.setEn_st (v : Byte) (s : State) : (s.setEn v).st = s.st := rfl
@[simp] theorem State.setEn_ia (v : Byte) (s : State) : (s.setEn v).ia = s.ia := rfl
@[simp] theorem State.setEn_fl (v : Byte) (s : State) : (s.setEn v).fl = s.fl := rfl
@[simp] theorem State.setEn_agenda (v : Byte) (s : State) : (s.setEn v).agenda = s.agenda := rfl
@[simp] theorem State.setEn_draws (v : Byte) (s : State) : (s.setEn v).draws = s.draws := rfl

/-! ### `setSt` -/

@[simp] theorem State.setSt_fr (v : Byte) (s : State) : (s.setSt v).fr = s.fr := rfl
@[simp] theorem State.setSt_par (v : Byte) (s : State) : (s.setSt v).par = s.par := rfl
@[simp] theorem State.setSt_ds (v : Byte) (s : State) : (s.setSt v).ds = s.ds := rfl
@[simp] theorem State.setSt_tmpEn (v : Byte) (s : State) : (s.setSt v).tmpEn = s.tmpEn := rfl
@[simp] theorem State.setSt_imask (v : Byte) (s : State) : (s.setSt v).imask = s.imask := rfl
@[simp] theorem State.setSt_pendA (v : Byte) (s : State) : (s.setSt v).pendA = s.pendA := rfl
@[simp] theorem State.setSt_pendF (v : Byte) (s : State) : (s.setSt v).pendF = s.pendF := rfl
@[simp] theorem State.setSt_obs (v : Byte) (s : State) : (s.setSt v).obs = s.obs := rfl
@[simp] theorem State.setSt_rxq (v : Byte) (s : State) : (s.setSt v).rxq = s.rxq := rfl
@[simp] theorem State.setSt_en (v : Byte) (s : State) : (s.setSt v).en = s.en := rfl
@[simp] theorem State.setSt_st (v : Byte) (s : State) : (s.setSt v).st = v := rfl
@[simp] theorem State.setSt_ia (v : Byte) (s : State) : (s.setSt v).ia = s.ia := rfl
@[simp] theorem State.setSt_fl (v : Byte) (s : State) : (s.setSt v).fl = s.fl := rfl
@[simp] theorem State.setSt_agenda (v : Byte) (s : State) : (s.setSt v).agenda = s.agenda := rfl
@[simp] theorem State.setSt_draws (v : Byte) (s : State) : (s.setSt v).draws = s.draws := rfl

/-! ### `setIa` -/

@[simp] theorem State.setIa_fr (v : Bool) (s : State) : (s.setIa v).fr = s.fr := rfl
@[simp] theorem State.setIa_par (v : Bool) (s : State) : (s.setIa v).par = s.par := rfl
@[simp] theorem State.setIa_ds (v : Bool) (s : State) : (s.setIa v).ds = s.ds := rfl
@[simp] theorem State.setIa_tmpEn (v : Bool) (s : State) : (s.setIa v).tmpEn = s.tmpEn := rfl
@[simp] theorem State.setIa_imask (v : Bool) (s : State) : (s.setIa v).imask = s.imask := rfl
@[simp] theorem State.setIa_pendA (v : Bool) (s : State) : (s.setIa v).pendA = s.pendA := rfl
@[simp] theorem State.setIa_pendF (v : Bool) (s : State) : (s.setIa v).pendF = s.pendF := rfl
@[simp] theorem State.setIa_obs (v : Bool) (s : State) : (s.setIa v).obs = s.obs := rfl
@[simp] theorem State.setIa_rxq (v : Bool) (s : State) : (s.setIa v).rxq = s.rxq := rfl
@[simp] theorem State.setIa_en (v : Bool) (s : State) : (s.setIa v).en = s.en := rfl
@[simp] theorem State.setIa_st (v : Bool) (s : State) : (s.setIa v).st = s.st := rfl
@[simp] theorem State.setIa_ia (v : Bool) (s : State) : (s.setIa v).ia = v := rfl
@[simp] theorem State.setIa_fl (v : Bool) (s : State) : (s.setIa v).fl = s.fl := rfl
@[simp] theorem State.setIa_agenda (v : Bool) (s : State) : (s.setIa v).agenda = s.agenda := rfl
@[simp] theorem State.setIa_draws (v : Bool) (s : State) : (s.setIa v).draws = s.draws := rfl

/-! ### `setFl` -/

@[simp] theorem State.setFl_fr (v : Bool) (s : State) : (s.setFl v).fr = s.fr := rfl
@[simp] theorem State.setFl_par (v : Bool) (s : State) : (s.setFl v).par = s.par := rfl
@[simp] theorem State.setFl_ds (v : Bool) (s : State) : (s.setFl v).ds = s.ds := rfl
@[simp] theorem State.setFl_tmpEn (v : Bool) (s : State) : (s.setFl v).tmpEn = s.tmpEn := rfl
@[simp] theorem State.setFl_imask (v : Bool) (s : State) : (s.setFl v).imask = s.imask := rfl
@[simp] theorem State.setFl_pendA (v : Bool) (s : State) : (s.setFl v).pendA = s.pendA := rfl
@[simp] theorem State.setFl_pendF (v : Bool) (s : State) : (s.setFl v).pendF = s.pendF := rfl
@[simp] theorem State.setFl_obs (v : Bool) (s : State) : (s.setFl v).obs = s.obs := rfl
@[simp] theorem State.setFl_rxq (v : Bool) (s : State) : (s.setFl v).rxq = s.rxq := rfl
@[simp] theorem State.setFl_en (v : Bool) (s : State) : (s.setFl v).en = s.en := rfl
@[simp] theorem State.setFl_st (v : Bool) (s : State) : (s.setFl v).st = s.st := rfl
@[simp] theorem State.setFl_ia (v : Bool) (s : State) : (s.setFl v).ia = s.ia := rfl
@[simp] theorem State.setFl_fl (v : Bool) (s : State) : (s.setFl v).fl = v := rfl
@[simp] theorem State.setFl_agenda (v : Bool) (s : State) : (s.setFl v).agenda = s.agenda := rfl
@[simp] theorem State.setFl_draws (v : Bool) (s : State) : (s.setFl v).draws = s.draws := rfl

/-! ### `setAgenda` -/

@[simp] theorem State.setAgenda_fr (v : List Turn) (s : State) : (s.setAgenda v).fr = s.fr := rfl
@[simp] theorem State.setAgenda_par (v : List Turn) (s : State) : (s.setAgenda v).par = s.par := rfl
@[simp] theorem State.setAgenda_ds (v : List Turn) (s : State) : (s.setAgenda v).ds = s.ds := rfl
@[simp] theorem State.setAgenda_tmpEn (v : List Turn) (s : State) : (s.setAgenda v).tmpEn = s.tmpEn := rfl
@[simp] theorem State.setAgenda_imask (v : List Turn) (s : State) : (s.setAgenda v).imask = s.imask := rfl
@[simp] theorem State.setAgenda_pendA (v : List Turn) (s : State) : (s.setAgenda v).pendA = s.pendA := rfl
@[simp] theorem State.setAgenda_pendF (v : List Turn) (s : State) : (s.setAgenda v).pendF = s.pendF := rfl
@[simp] theorem State.setAgenda_obs (v : List Turn) (s : State) : (s.setAgenda v).obs = s.obs := rfl
@[simp] theorem State.setAgenda_rxq (v : List Turn) (s : State) : (s.setAgenda v).rxq = s.rxq := rfl
@[simp] theorem State.setAgenda_en (v : List Turn) (s : State) : (s.setAgenda v).en = s.en := rfl
@[simp] theorem State.setAgenda_st (v : List Turn) (s : State) : (s.setAgenda v).st = s.st := rfl
@[simp] theorem State.setAgenda_ia (v : List Turn) (s : State) : (s.setAgenda v).ia = s.ia := rfl
@[simp] theorem State.setAgenda_fl (v : List Turn) (s : State) : (s.setAgenda v).fl = s.fl := rfl
@[simp] theorem State.setAgenda_agenda (v : List Turn) (s : State) : (s.setAgenda v).agenda = v := rfl
@[simp] theorem State.setAgenda_draws (v : List Turn) (s : State) : (s.setAgenda v).draws = s.draws := rfl

/-! ### `setDraws` -/

@[simp] theorem State.setDraws_fr (v : Nat) (s : State) : (s.setDraws v).fr = s.fr := rfl
@[simp] theorem State.setDraws_par (v : Nat) (s : State) : (s.setDraws v).par = s.par := rfl
@[simp] theorem State.setDraws_ds (v : Nat) (s : State) : (s.setDraws v).ds = s.ds := rfl
@[simp] theorem State.setDraws_tmpEn (v : Nat) (s : State) : (s.setDraws v).tmpEn = s.tmpEn := rfl
@[simp] theorem State.setDraws_imask (v : Nat) (s : State) : (s.setDraws v).imask = s.imask := rfl
@[simp] theorem State.setDraws_pendA (v : Nat) (s : State) : (s.setDraws v).pendA = s.pendA := rfl
@[simp] theorem State.setDraws_pendF (v : Nat) (s : State) : (s.setDraws v).pendF = s.pendF := rfl
@[simp] theorem State.setDraws_obs (v : Nat) (s : State) : (s.setDraws v).obs = s.obs := rfl
@[simp] theorem State.setDraws_rxq (v : Nat) (s : State) : (s.setDraws v).rxq = s.rxq := rfl
@[simp] theorem State.setDraws_en (v : Nat) (s : State) : (s.setDraws v).en = s.en := rfl
@[simp] theorem State.setDraws_st (v : Nat) (s : State) : (s.setDraws v).st = s.st := rfl
@[simp] theorem State.setDraws_ia (v : Nat) (s : State) : (s.setDraws v).ia = s.ia := rfl
@[simp] theorem State.setDraws_fl (v : Nat) (s : State) : (s.setDraws v).fl = s.fl := rfl
@[simp] theorem State.setDraws_agenda (v : Nat) (s : State) : (s.setDraws v).agenda = s.agenda := rfl
@[simp] theorem State.setDraws_draws (v : Nat) (s : State) : (s.setDraws v).draws = v := rfl

/-- Two states with equal fields are equal. -/
theorem State.eq_of_fields {s t : State} (hfr : s.fr = t.fr) (hpar : s.par = t.par) (hds : s.ds = t.ds)
    (htmp : s.tmpEn = t.tmpEn) (hmask : s.imask = t.imask) (ha : s.pendA = t.pendA) (hf : s.pendF = t.pendF)
    (hobs : s.obs = t.obs) (hrxq : s.rxq = t.rxq) (hen : s.en = t.en) (hst : s.st = t.st) (hia : s.ia = t.ia)
    (hfl : s.fl = t.fl) (hag : s.agenda = t.agenda) (hdr : s.draws = t.draws) : s = t := by
  cases s; cases t; simp_all

end Sys2Proof.Machine
end

