-- ==== Sys2Proof/Laws/Ops.lean ====
section
/-! SUPPORT. What each shared operation can do, said once: the lemmas to cite instead of unfolding the operations of
Machine/Ops.lean and Machine/Flags.lean. -/

namespace Sys2Proof

/-! ### The PAR8 codes -/

/-- No action is encoded as EMPTY (R75). -/
@[simp] theorem encAction_ne_emptyPar (a : PendingAction) : encAction a ≠ emptyPar := by
  cases a with
  | command c => cases c <;> decide
  | event e => cases e <;> decide

/-- `dec` undoes `enc` (R75). -/
@[simp] theorem decAction_encAction (a : PendingAction) : decAction (encAction a) = some a := by
  cases a with
  | command c => cases c <;> decide
  | event e => cases e <;> decide

/-- `dec` has a value only on the code of that value (R75, R76). -/
theorem eq_encAction_of_decAction {w : Byte} {a : PendingAction} (h : decAction w = some a) : w = encAction a := by
  revert h a; revert w; decide

@[simp] theorem decAction_emptyPar : decAction emptyPar = none := by decide

/-- Two actions with one code are one action (R73, R74). -/
theorem encAction_injective {a b : PendingAction} (h : encAction a = encAction b) : a = b := by
  have := decAction_encAction a
  rw [h, decAction_encAction] at this
  exact (Option.some.inj this).symm

namespace Machine

/-! ### `stage` and `drain` -/

theorem stage_eq (a : PendingAction) (s : State) : stage a s = { s with par := encAction a } := rfl

theorem drain_of_empty {s : State} (h : s.par = emptyPar) : drain s = .none := by
  simp [drain, h]

theorem drain_of_action {s : State} {a : PendingAction} (h : s.par = encAction a) :
    drain s = .action a (s.setPar emptyPar) := by
  simp [drain, h]

/-- Everything a drain can answer (R132). -/
theorem drain_cases (s : State) :
    (s.par = emptyPar ∧ drain s = .none) ∨
    (∃ a, s.par = encAction a ∧ drain s = .action a (s.setPar emptyPar)) ∨
    (s.par ≠ emptyPar ∧ decAction s.par = none ∧ drain s = .reserved) := by
  by_cases h0 : s.par = emptyPar
  · exact .inl ⟨h0, drain_of_empty h0⟩
  · cases ha : decAction s.par with
    | some a =>
      have h := eq_encAction_of_decAction ha
      exact .inr (.inl ⟨a, h, drain_of_action h⟩)
    | none => exact .inr (.inr ⟨h0, rfl, by simp [drain, h0, ha]⟩)

/-! ### Outputs and the Dispatcher's moves -/

theorem emit_eq (text : Line) (s : State) : emit text s = { s with obs := s.obs ++ [.line text] } := rfl

theorem pulse_eq (x : Actuator) (s : State) : pulse x s = { s with obs := s.obs ++ [.pulse x] } := rfl

theorem goto_eq (d : DispState) (s : State) : goto d s = { s with ds := d } := rfl

theorem finish_eq (s : State) : finish s = { s with ds := .idle } := rfl

theorem reply_eq (r : Reply) (s : State) :
    reply r s = { s with obs := s.obs ++ [.line (replyText r)], ds := .idle } := rfl

theorem holdEn_eq (s : State) : holdEn s = { s with tmpEn := s.en } := rfl

theorem suppressInterrupts_eq (s : State) : suppressInterrupts s = { s with imask := true } := rfl

theorem restoreInterrupts_eq (s : State) : restoreInterrupts s = { s with imask := false } := rfl

@[simp] theorem actionOf_startOf (a : PendingAction) : actionOf (startOf a) = some a := by
  cases a with
  | command c => cases c <;> rfl
  | event e => cases e <;> rfl

theorem actionOf_eq_none {d : DispState} : actionOf d = none ↔ d = .idle := by
  cases d <;> simp [actionOf]

theorem beginAction_of_action {s : State} {a : PendingAction} (h : s.par = encAction a) :
    beginAction a s = .next { s with par := emptyPar, ds := startOf a } := by
  simp [beginAction, drain_of_action h]; rfl

/-- Everything the drain step for an action can answer (R201): the action is taken out, or it has no step, or the word is
reserved. -/
theorem beginAction_cases (a : PendingAction) (s : State) :
    (s.par = encAction a ∧ beginAction a s = .next { s with par := emptyPar, ds := startOf a }) ∨
    (s.par ≠ encAction a ∧ beginAction a s = .next s) ∨
    (s.par ≠ emptyPar ∧ decAction s.par = none ∧ beginAction a s = .fault .reservedPar) := by
  rcases drain_cases s with ⟨h, hd⟩ | ⟨b, h, hd⟩ | ⟨h, hn, hd⟩
  · exact .inr (.inl ⟨by rw [h]; exact (encAction_ne_emptyPar a).symm, by simp [beginAction, hd]⟩)
  · by_cases hb : b = a
    · subst hb; exact .inl ⟨h, beginAction_of_action h⟩
    · exact .inr (.inl ⟨fun hc => hb (encAction_injective (h.symm.trans hc)), by simp [beginAction, hd, hb]⟩)
  · exact .inr (.inr ⟨h, hn, by simp [beginAction, hd]⟩)

/-! ### The Line Decoder's step -/

theorem decodeStep_of_literal {c : Command} {s : State} {rest : List Line} (h : s.rxq = lineLiteral c :: rest)
    (hm : s.imask = false) :
    decodeStep c s = .next { s with rxq := rest, par := encAction (.command c) } := by
  simp [decodeStep, h, hm, stage, State.setPar, State.setRxq]

/-- Everything the Line Decoder's step on a literal can do (R157): it always goes on, having consumed that literal and
staged its command, or having done nothing. -/
theorem decodeStep_cases (c : Command) (s : State) :
    (∃ rest, s.rxq = lineLiteral c :: rest ∧ s.imask = false ∧
      decodeStep c s = .next { s with rxq := rest, par := encAction (.command c) }) ∨
    ((s.imask = true ∨ ∀ rest, s.rxq ≠ lineLiteral c :: rest) ∧ decodeStep c s = .next s) := by
  cases hq : s.rxq with
  | nil => exact .inr ⟨.inr (by simp), by simp [decodeStep, hq]⟩
  | cons line rest =>
    by_cases h : s.imask = false ∧ line = lineLiteral c
    · obtain ⟨hm, rfl⟩ := h
      exact .inl ⟨rest, rfl, hm, decodeStep_of_literal hq hm⟩
    · refine .inr ⟨?_, by simp only [decodeStep, hq, if_neg h]⟩
      cases hm : s.imask with
      | true => exact .inl rfl
      | false =>
        refine .inr fun r hr => h ⟨hm, ?_⟩
        simpa using (List.cons.inj hr).1

/-! ### The edge detectors -/

/-- The active-edge detector sets `pend_a` or does nothing (R173). -/
theorem detectActiveEdge_cases (p : MaskedEdge) (new : Bool) (s : State) :
    (s.ia = false ∧ new = true ∧ (s.imask = false ∨ p = .deferred) ∧
      detectActiveEdge p new s = { s with pendA := true }) ∨
    (¬(s.ia = false ∧ new = true ∧ (s.imask = false ∨ p = .deferred)) ∧ detectActiveEdge p new s = s) := by
  cases hi : s.ia <;> cases new <;> cases hm : s.imask <;> cases p <;>
    simp [detectActiveEdge, risingEdge, edgeKept, hi, hm, State.setPendA]

/-- The fault-edge detector sets `pend_f` or does nothing (R174). -/
theorem detectFaultEdge_cases (p : MaskedEdge) (new : Bool) (s : State) :
    (s.fl = false ∧ new = true ∧ (s.imask = false ∨ p = .deferred) ∧
      detectFaultEdge p new s = { s with pendF := true }) ∨
    (¬(s.fl = false ∧ new = true ∧ (s.imask = false ∨ p = .deferred)) ∧ detectFaultEdge p new s = s) := by
  cases hi : s.fl <;> cases new <;> cases hm : s.imask <;> cases p <;>
    simp [detectFaultEdge, risingEdge, edgeKept, hi, hm, State.setPendF]

end Machine

end Sys2Proof
end

