-- ==== Sys2Proof/Laws/Actions.lean ====
section
/-! SUPPORT. Everything a turn of the interleaving can do, said once as the relations `ActionStep` and `TurnStep`; the
inversion lemmas give them from an answer of `exec`, `dispatcherTurn` and `takeTurn`. -/

namespace Sys2Proof.Machine

/-- The steps of the Dispatcher (R201, R205 to R212), each with its enabling condition and the state it leaves. -/
inductive ActionStep (s : State) : State → Prop where
  /-- No step: EMPTY, or an action that is not the current one. -/
  | wait : ActionStep s s
  | drain (a : PendingAction) (hds : s.ds = .idle) (hpar : s.par = encAction a) :
      ActionStep s { s with par := emptyPar, ds := startOf a }
  | resetActive (hds : s.ds = .reset 0) (hia : s.ia = true) :
      ActionStep s { s with obs := s.obs ++ [.line (replyText .active)], ds := .idle }
  | resetInactive (hds : s.ds = .reset 0) (hia : s.ia = false) : ActionStep s { s with ds := .reset 1 }
  | resetPulse (hds : s.ds = .reset 1) :
      ActionStep s { s with obs := s.obs ++ [.pulse .reset], ds := .reset 2 }
  | resetSuccess (hds : s.ds = .reset 2) (hia : s.ia = true) :
      ActionStep s { s with obs := s.obs ++ [.line (replyText .resetSuccess)], ds := .idle }
  | resetFailed (hds : s.ds = .reset 2) (hia : s.ia = false) : ActionStep s { s with ds := .reset 3 }
  | resetHoldEn (hds : s.ds = .reset 3) : ActionStep s { s with tmpEn := s.en, ds := .reset 4 }
  | resetFailReply (hds : s.ds = .reset 4) :
      ActionStep s
        { s with obs := s.obs ++ [.line (replyText (.resetFail (packCsw s.tmpEn s.st)))], ds := .idle }
  | statusHoldEn (hds : s.ds = .status 0) : ActionStep s { s with tmpEn := s.en, ds := .status 1 }
  | statusReply (hds : s.ds = .status 1) :
      ActionStep s { s with obs := s.obs ++ [.line (replyText (.status (packCsw s.tmpEn s.st)))], ds := .idle }
  | faultRegister (hds : s.ds = .faultRegister) :
      ActionStep s { s with obs := s.obs ++ [.line (replyText (.faultReg s.fr))], ds := .idle }
  | disableInactive (hds : s.ds = .disable 0) (hia : s.ia = false) :
      ActionStep s { s with obs := s.obs ++ [.line (replyText .deactive)], ds := .idle }
  | disableActive (hds : s.ds = .disable 0) (hia : s.ia = true) : ActionStep s { s with ds := .disable 1 }
  | disableMask (hds : s.ds = .disable 1) : ActionStep s { s with imask := true, ds := .disable 2 }
  | disablePulse (hds : s.ds = .disable 2) :
      ActionStep s { s with obs := s.obs ++ [.pulse .disable], ds := .disable 3 }
  | disableUnmask (hds : s.ds = .disable 3) : ActionStep s { s with imask := false, ds := .disable 4 }
  | disableSuccess (hds : s.ds = .disable 4) (hia : s.ia = false) :
      ActionStep s { s with obs := s.obs ++ [.line (replyText .disableSuccess)], ds := .idle }
  | disableSilent (hds : s.ds = .disable 4) (hia : s.ia = true) : ActionStep s { s with ds := .idle }
  | model (hds : s.ds = .model) :
      ActionStep s { s with obs := s.obs ++ [.line (replyText .identity)], ds := .idle }
  | manualReset (hds : s.ds = .manualReset) :
      ActionStep s { s with obs := s.obs ++ [.line (replyText .manualReset)], ds := .idle }
  | manualDisable (hds : s.ds = .manualDisable) :
      ActionStep s { s with obs := s.obs ++ [.line (replyText .manualDisable)], ds := .idle }
  | fault (hds : s.ds = .fault) :
      ActionStep s { s with obs := s.obs ++ [.line (replyText (.fault s.fr))], ds := .idle }

/-- The drain step of an action is a step of the Dispatcher. -/
theorem actionStep_of_beginAction {a : PendingAction} {s t : State} (hds : s.ds = .idle)
    (h : beginAction a s = .next t) : ActionStep s t := by
  rcases beginAction_cases a s with ⟨hp, hb⟩ | ⟨-, hb⟩ | ⟨-, -, hb⟩ <;> rw [hb] at h
  · cases h; exact .drain a hds hp
  · cases h; exact .wait
  · cases h

theorem actionStep_of_execReset {s t : State} (h : execReset s = .next t) : ActionStep s t := by
  unfold execReset at h
  split at h
  · next hd => exact actionStep_of_beginAction hd h
  · next hd => cases hi : s.ia <;> simp [readIa, hi, goto_eq, reply_eq] at h <;> subst h
               · exact hi ▸ .resetInactive hd hi
               · exact hi ▸ .resetActive hd hi
  · next hd => cases h; exact .resetPulse hd
  · next hd => cases hi : s.ia <;> simp [readIa, hi, goto_eq, reply_eq] at h <;> subst h
               · exact hi ▸ .resetFailed hd hi
               · exact hi ▸ .resetSuccess hd hi
  · next hd => cases h; exact .resetHoldEn hd
  · next hd => cases h; exact .resetFailReply hd
  · cases h; exact .wait

theorem actionStep_of_execStatus {s t : State} (h : execStatus s = .next t) : ActionStep s t := by
  unfold execStatus at h
  split at h
  · next hd => exact actionStep_of_beginAction hd h
  · next hd => cases h; exact .statusHoldEn hd
  · next hd => cases h; exact .statusReply hd
  · cases h; exact .wait

theorem actionStep_of_execFaultRegister {s t : State} (h : execFaultRegister s = .next t) : ActionStep s t := by
  unfold execFaultRegister at h
  split at h
  · next hd => exact actionStep_of_beginAction hd h
  · next hd => cases h; exact .faultRegister hd
  · cases h; exact .wait

theorem actionStep_of_execDisable {s t : State} (h : execDisable s = .next t) : ActionStep s t := by
  unfold execDisable at h
  split at h
  · next hd => exact actionStep_of_beginAction hd h
  · next hd => cases hi : s.ia <;> simp [readIa, hi, goto_eq, reply_eq] at h <;> subst h
               · exact hi ▸ .disableInactive hd hi
               · exact hi ▸ .disableActive hd hi
  · next hd => cases h; exact .disableMask hd
  · next hd => cases h; exact .disablePulse hd
  · next hd => cases h; exact .disableUnmask hd
  · next hd => cases hi : s.ia <;> simp [readIa, hi, finish_eq, reply_eq] at h <;> subst h
               · exact hi ▸ .disableSuccess hd hi
               · exact hi ▸ .disableSilent hd hi
  · cases h; exact .wait

theorem actionStep_of_execModel {s t : State} (h : execModel s = .next t) : ActionStep s t := by
  unfold execModel at h
  split at h
  · next hd => exact actionStep_of_beginAction hd h
  · next hd => cases h; exact .model hd
  · cases h; exact .wait

theorem actionStep_of_execManualReset {s t : State} (h : execManualReset s = .next t) : ActionStep s t := by
  unfold execManualReset at h
  split at h
  · next hd => exact actionStep_of_beginAction hd h
  · next hd => cases h; exact .manualReset hd
  · cases h; exact .wait

theorem actionStep_of_execManualDisable {s t : State} (h : execManualDisable s = .next t) : ActionStep s t := by
  unfold execManualDisable at h
  split at h
  · next hd => exact actionStep_of_beginAction hd h
  · next hd => cases h; exact .manualDisable hd
  · cases h; exact .wait

theorem actionStep_of_execFault {s t : State} (h : execFault s = .next t) : ActionStep s t := by
  unfold execFault at h
  split at h
  · next hd => exact actionStep_of_beginAction hd h
  · next hd => cases h; exact .fault hd
  · cases h; exact .wait

/-- In `Idle` an action's instruction is its drain step (R201). -/
theorem exec_of_idle (a : PendingAction) {s : State} (hd : s.ds = .idle) :
    exec (Instr.ofAction a) s = beginAction a s := by
  cases a with
  | command c =>
    cases c <;>
      simp [exec, Instr.ofAction, execReset, execStatus, execFaultRegister, execDisable, execModel, hd]
  | event e => cases e <;> simp [exec, Instr.ofAction, execManualReset, execManualDisable, execFault, hd]

/-- What an action's instruction can do. -/
theorem actionStep_of_exec {a : PendingAction} {s t : State} (h : exec (Instr.ofAction a) s = .next t) :
    ActionStep s t := by
  cases a with
  | command c =>
    cases c with
    | reset => exact actionStep_of_execReset h
    | status => exact actionStep_of_execStatus h
    | faultRegister => exact actionStep_of_execFaultRegister h
    | disable => exact actionStep_of_execDisable h
    | model => exact actionStep_of_execModel h
  | event e =>
    cases e with
    | manualReset => exact actionStep_of_execManualReset h
    | manualDisable => exact actionStep_of_execManualDisable h
    | fault => exact actionStep_of_execFault h

/-- What a line's instruction can do: the Line Decoder's step on its literal. -/
theorem exec_ofLine (c : Command) (s : State) : exec (Instr.ofLine c) s = decodeStep c s := by
  cases c <;> rfl

/-! ### Fetching -/

theorem decodePar_encAction (a : PendingAction) : decodePar (encAction a) = .instr (Instr.ofAction a) := by
  simp [decodePar]

/-- In `Proc(act, k)` the Dispatcher's turn is that action's instruction. -/
theorem dispatcherTurn_of_action {s : State} {a : PendingAction} (h : actionOf s.ds = some a) :
    dispatcherTurn s = exec (Instr.ofAction a) s := by
  simp [dispatcherTurn, fetchAction, h]

theorem dispatcherTurn_of_empty {s : State} (hd : s.ds = .idle) (hp : s.par = emptyPar) :
    dispatcherTurn s = .next s := by
  simp [dispatcherTurn, fetchAction, hd, hp, actionOf, decode, decodePar, exec, execEmpty]

theorem dispatcherTurn_of_idle {s : State} {a : PendingAction} (hd : s.ds = .idle) (hp : s.par = encAction a) :
    dispatcherTurn s = exec (Instr.ofAction a) s := by
  simp [dispatcherTurn, fetchAction, hd, hp, actionOf, decode, decodePar_encAction]

theorem dispatcherTurn_of_reserved {s : State} (hd : s.ds = .idle) (h0 : s.par ≠ emptyPar)
    (hn : decAction s.par = none) : dispatcherTurn s = .fault .reservedPar := by
  simp [dispatcherTurn, fetchAction, hd, h0, hn, actionOf, decode, decodePar]

/-- What the Dispatcher's turn can do. -/
theorem actionStep_of_dispatcherTurn {s t : State} (h : dispatcherTurn s = .next t) : ActionStep s t := by
  cases ha : actionOf s.ds with
  | some a => exact actionStep_of_exec (dispatcherTurn_of_action ha ▸ h)
  | none =>
    have hd := actionOf_eq_none.1 ha
    rcases drain_cases s with ⟨hp, -⟩ | ⟨a, hp, -⟩ | ⟨h0, hn, -⟩
    · rw [dispatcherTurn_of_empty hd hp] at h; cases h; exact .wait
    · exact actionStep_of_exec (dispatcherTurn_of_idle hd hp ▸ h)
    · rw [dispatcherTurn_of_reserved hd h0 hn] at h; cases h

/-- A command line is the literal of its command (R150). -/
theorem eq_lineLiteral_of_decodeCommand {line : Line} {c : Command} (h : decodeCommand line = some c) :
    line = lineLiteral c := by
  unfold decodeCommand at h
  repeat (split at h; · next hl => cases h; exact hl)
  cases h

/-- The Line Decoder's turn (R157): no step, one line consumed silently, or one line consumed and its command
staged. -/
theorem lineDecoderTurn_cases (s : State) :
    ((s.rxq = [] ∨ s.imask = true) ∧ lineDecoderTurn s = .next s) ∨
    (∃ line rest, s.rxq = line :: rest ∧ s.imask = false ∧ decodeCommand line = none ∧
      lineDecoderTurn s = .next { s with rxq := rest }) ∨
    (∃ line rest c, s.rxq = line :: rest ∧ s.imask = false ∧ decodeCommand line = some c ∧
      lineDecoderTurn s = .next { s with rxq := rest, par := encAction (.command c) }) := by
  cases hq : s.rxq with
  | nil => exact .inl ⟨.inl rfl, by simp [lineDecoderTurn, hq]⟩
  | cons line rest =>
    cases hc : decodeCommand line with
    | none =>
      cases hm : s.imask with
      | true => exact .inl ⟨.inr rfl, by simp [lineDecoderTurn, hq, decode, decodeLine, hc, discardLine, hm]⟩
      | false =>
        exact .inr (.inl ⟨line, rest, rfl, rfl, hc, by
          simp [lineDecoderTurn, hq, decode, decodeLine, hc, discardLine, hm, State.setRxq]⟩)
    | some c =>
      have ht : lineDecoderTurn s = decodeStep c s := by
        simp [lineDecoderTurn, hq, decode, decodeLine, hc, exec_ofLine]
      cases hm : s.imask with
      | true => exact .inl ⟨.inr rfl, by simp [ht, decodeStep, hq, hm]⟩
      | false =>
        have hl := eq_lineLiteral_of_decodeCommand hc
        subst hl
        refine .inr (.inr ⟨_, rest, c, rfl, rfl, hc, ?_⟩)
        rw [ht, decodeStep_of_literal hq hm, hm]

/-! ### The service steps -/

/-- The word that the Fault-Edge Service stages (R178). -/
theorem encAction_classifyFault (r : Byte) :
    encAction (.event (classifyFault r)) = if r = 0x00 then 0xC1 else 0xC2 := by
  unfold classifyFault; split <;> rfl

theorem activeEdgeService_of_enabled {s : State} (ha : s.pendA = true) (hm : s.imask = false) :
    activeEdgeService s = { s with pendA := false, par := encAction (.event .manualReset) } := by
  simp [activeEdgeService, ha, hm, stage, State.setPar, State.setPendA]

theorem faultEdgeService_of_enabled {s : State} (hf : s.pendF = true) (hm : s.imask = false) :
    faultEdgeService s = { s with pendF := false, par := encAction (.event (classifyFault s.fr)) } := by
  simp [faultEdgeService, hf, hm, stage, State.setPar, State.setPendF, readFr]

/-! ### Turns -/

/-- The steps of every agent (R13), each with its enabling condition and the state it leaves. -/
inductive TurnStep (p : MaskedEdge) (s : State) : Turn → State → Prop where
  /-- A turn of an agent whose step is not enabled. -/
  | noStep (t : Turn) : TurnStep p s t s
  | discard (line : Line) (rest : List Line) (hq : s.rxq = line :: rest) (hm : s.imask = false)
      (hc : decodeCommand line = none) : TurnStep p s .lineDecoder { s with rxq := rest }
  | command (line : Line) (rest : List Line) (c : Command) (hq : s.rxq = line :: rest) (hm : s.imask = false)
      (hc : decodeCommand line = some c) :
      TurnStep p s .lineDecoder { s with rxq := rest, par := encAction (.command c) }
  | activeEdge (ha : s.pendA = true) (hm : s.imask = false) :
      TurnStep p s .activeEdgeService { s with pendA := false, par := encAction (.event .manualReset) }
  | faultEdge (hf : s.pendF = true) (hm : s.imask = false) :
      TurnStep p s .faultEdgeService { s with pendF := false, par := encAction (.event (classifyFault s.fr)) }
  | action (t : State) (h : ActionStep s t) : TurnStep p s .dispatcher t
  | env (e : EnvStep) : TurnStep p s (.env e) (envStep p e s)
  | powerUp (d : PowerUpDraws) : TurnStep p s (.powerUp d) (powerUp d s)

/-- What a turn can do. -/
theorem turnStep_of_takeTurn {p : MaskedEdge} {t : Turn} {s s' : State} (h : takeTurn p t s = .next s') :
    TurnStep p s t s' := by
  cases t with
  | lineDecoder =>
    change lineDecoderTurn s = .next s' at h
    rcases lineDecoderTurn_cases s with ⟨-, hl⟩ | ⟨l, r, hq, hm, hc, hl⟩ | ⟨l, r, c, hq, hm, hc, hl⟩ <;>
      rw [hl] at h <;> cases h
    · exact .noStep _
    · exact .discard l r hq hm hc
    · exact .command l r c hq hm hc
  | activeEdgeService =>
    by_cases hc : s.pendA = true ∧ s.imask = false
    · simp only [takeTurn, activeEdgeService, if_pos hc] at h
      cases h; exact .activeEdge hc.1 hc.2
    · simp only [takeTurn, activeEdgeService, if_neg hc] at h
      cases h; exact .noStep _
  | faultEdgeService =>
    by_cases hc : s.pendF = true ∧ s.imask = false
    · simp only [takeTurn, faultEdgeService, if_pos hc] at h
      cases h; exact .faultEdge hc.1 hc.2
    · simp only [takeTurn, faultEdgeService, if_neg hc] at h
      cases h; exact .noStep _
  | dispatcher => exact .action _ (actionStep_of_dispatcherTurn h)
  | env e => cases h; exact .env e
  | powerUp d => cases h; exact .powerUp d

end Sys2Proof.Machine
end

