-- ==== Sys2Proof/Laws/PerInstr.lean ====
section
/-! SUPPORT. One lemma per instruction: its encoding is a well-formed word, and decodes to it. -/

namespace Sys2Proof.Laws.EncodedWord

/-- The word of `i` is well formed (R76, R81) and decodes to `i` (R71, R75). -/
def Statement (i : Instr) : Prop := (encode i).wf = true ∧ decode (encode i) = .instr i

theorem reset : Statement .reset := ⟨rfl, rfl⟩
theorem status : Statement .status := ⟨rfl, rfl⟩
theorem faultRegister : Statement .faultRegister := ⟨rfl, rfl⟩
theorem disable : Statement .disable := ⟨rfl, rfl⟩
theorem model : Statement .model := ⟨rfl, rfl⟩
theorem manualReset : Statement .manualReset := ⟨rfl, rfl⟩
theorem manualDisable : Statement .manualDisable := ⟨rfl, rfl⟩
theorem fault : Statement .fault := ⟨rfl, rfl⟩
theorem empty : Statement .empty := ⟨rfl, rfl⟩
theorem lineReset : Statement .lineReset := ⟨rfl, rfl⟩
theorem lineStatus : Statement .lineStatus := ⟨rfl, rfl⟩
theorem lineFaultReg : Statement .lineFaultReg := ⟨rfl, rfl⟩
theorem lineDisable : Statement .lineDisable := ⟨rfl, rfl⟩
theorem lineRelialok : Statement .lineRelialok := ⟨rfl, rfl⟩

end Sys2Proof.Laws.EncodedWord
end

