-- ==== Sys2Proof/Laws/Runs.lean ====
section
/-! SUPPORT. Runs over a list of turns: how they compose, and the induction that carries a property of every turn to every
run. -/

namespace Sys2Proof.Machine

@[simp] theorem runTurns_nil (p : MaskedEdge) (s : State) : runTurns p [] s = .next s := rfl

/-- A run of one turn and more. -/
theorem runTurns_cons_of_next {p : MaskedEdge} {t : Turn} {s s' : State} (ts : List Turn)
    (h : takeTurn p t s = .next s') : runTurns p (t :: ts) s = runTurns p ts s' := by
  simp [runTurns, h]

/-- A run that ends in a next state took a next state at its first turn. -/
theorem runTurns_cons_eq_next {p : MaskedEdge} {t : Turn} {ts : List Turn} {s s' : State}
    (h : runTurns p (t :: ts) s = .next s') : ∃ u, takeTurn p t s = .next u ∧ runTurns p ts u = .next s' := by
  unfold runTurns at h
  split at h
  · next u hu => exact ⟨u, hu, h⟩
  · cases h
  · cases h

/-- Runs compose. -/
theorem runTurns_append_of_next {p : MaskedEdge} {ts : List Turn} {s s' : State} (us : List Turn)
    (h : runTurns p ts s = .next s') : runTurns p (ts ++ us) s = runTurns p us s' := by
  induction ts generalizing s with
  | nil => cases h; rfl
  | cons t ts ih =>
    obtain ⟨u, hu, hr⟩ := runTurns_cons_eq_next h
    rw [List.cons_append, runTurns_cons_of_next _ hu, ih hr]

/-- A run of a composed list passes through the state between. -/
theorem runTurns_append_eq_next {p : MaskedEdge} {ts us : List Turn} {s s' : State}
    (h : runTurns p (ts ++ us) s = .next s') : ∃ u, runTurns p ts s = .next u ∧ runTurns p us u = .next s' := by
  induction ts generalizing s with
  | nil => exact ⟨s, rfl, h⟩
  | cons t ts ih =>
    obtain ⟨u, hu, hr⟩ := runTurns_cons_eq_next h
    obtain ⟨v, hv, hw⟩ := ih hr
    exact ⟨v, by rw [runTurns_cons_of_next _ hu, hv], hw⟩

/-- A property that every turn of a list keeps holds at the end of the run. -/
theorem runTurns_induction {p : MaskedEdge} {P : State → Prop} {ts : List Turn}
    (hstep : ∀ t ∈ ts, ∀ s s', P s → takeTurn p t s = .next s' → P s') {s s' : State} (hs : P s)
    (h : runTurns p ts s = .next s') : P s' := by
  induction ts generalizing s with
  | nil => cases h; exact hs
  | cons t ts ih =>
    obtain ⟨u, hu, hr⟩ := runTurns_cons_eq_next h
    exact ih (fun t' ht' => hstep t' (List.mem_cons_of_mem _ ht')) (hstep t List.mem_cons_self s u hs hu) hr

/-! ### What a history holds -/

@[simp] theorem repliesOf_nil : repliesOf [] = [] := rfl

@[simp] theorem pulsesOf_nil : pulsesOf [] = [] := rfl

@[simp] theorem repliesOf_append (h k : List Obs) : repliesOf (h ++ k) = repliesOf h ++ repliesOf k := by
  simp [repliesOf]

@[simp] theorem pulsesOf_append (h k : List Obs) : pulsesOf (h ++ k) = pulsesOf h ++ pulsesOf k := by
  simp [pulsesOf]

@[simp] theorem repliesOf_line (text : Line) (h : List Obs) :
    repliesOf (.line text :: h) = text :: repliesOf h := rfl

@[simp] theorem repliesOf_pulse (x : Actuator) (h : List Obs) : repliesOf (.pulse x :: h) = repliesOf h := rfl

@[simp] theorem pulsesOf_line (text : Line) (h : List Obs) : pulsesOf (.line text :: h) = pulsesOf h := rfl

@[simp] theorem pulsesOf_pulse (x : Actuator) (h : List Obs) : pulsesOf (.pulse x :: h) = x :: pulsesOf h := rfl

/-! ### One step -/

/-- One step is the turn that the schedule gives, on the state with the schedule moved on. -/
theorem stepWith_of_agenda {p : MaskedEdge} {s : State} {t : Turn} {rest : List Turn} (h : s.agenda = t :: rest) :
    stepWith p s = takeTurn p t (s.setAgenda rest) := by
  simp [stepWith, nextTurn, popTurn, h]

theorem stepWith_of_no_agenda {p : MaskedEdge} {s : State} (h : s.agenda = []) :
    stepWith p s = takeTurn p (Config.freeTurn s.draws) (s.setDraws (s.draws + 1)) := by
  simp [stepWith, nextTurn, popTurn, h]

end Sys2Proof.Machine
end

