-- ==== Sys2Proof/Tests/Slice0.lean ====
section
/-! SUPPORT. The model's own tests. Expected values come from spec/95_test_vectors.md (its vector ids are named) and from
the encoding tables of spec/30_encoding.md. The theorems named `witness_<statement>` show that the hypotheses of a
statement of Certificates/Slice0/Obligations.lean can be met. -/

namespace Sys2Proof.Tests

open Sys2Proof.Machine

/-- The reset state with another Dispatcher state. -/
def inState (d : DispState) : State := { State.reset with ds := d }

/-- A projection of the next state, if the outcome has one. -/
def after {α : Type} (r : Result) (f : State → α) : Option α :=
  match r with
  | .next s => some (f s)
  | .fault _ => none
  | .refused _ => none

/-- Whether the outcome is the fault of a reserved word. -/
def isReservedFault : Result → Bool
  | .fault .reservedPar => true
  | _ => false

/-- The ASCII bytes of characters. -/
def ascii (cs : List Char) : Line := cs.map fun c => BitVec.ofNat 8 c.toNat

/-! ### Well-formedness: one ill-formed word for each check (R72 to R76) -/

theorem test_emptyCheck_refuses : emptyCheck 0b00000001 = false ∧ RawWord.wf (.par 0b00000001) = false := by decide
theorem test_reservedCheck_refuses :
    reservedCheck 0b10001000 = false ∧ RawWord.wf (.par 0b10001000) = false := by decide
theorem test_commandCodeCheck_refuses :
    commandCodeCheck 0b10000101 = false ∧ RawWord.wf (.par 0b10000101) = false := by decide
theorem test_eventCodeCheck_refuses :
    eventCodeCheck 0b11000011 = false ∧ RawWord.wf (.par 0b11000011) = false := by decide

/-! ### Decoding: every row's word, written out from R73, R74, R75 (PAR8: V K 000 CODE) and R71 (LINE) -/

theorem test_decode_reset : decodeTableWord 8 0b10000000 = some .reset := by decide
theorem test_decode_status : decodeTableWord 8 0b10000001 = some .status := by decide
theorem test_decode_faultRegister : decodeTableWord 8 0b10000010 = some .faultRegister := by decide
theorem test_decode_disable : decodeTableWord 8 0b10000011 = some .disable := by decide
theorem test_decode_model : decodeTableWord 8 0b10000100 = some .model := by decide
theorem test_decode_manualReset : decodeTableWord 8 0b11000000 = some .manualReset := by decide
theorem test_decode_manualDisable : decodeTableWord 8 0b11000001 = some .manualDisable := by decide
theorem test_decode_fault : decodeTableWord 8 0b11000010 = some .fault := by decide
theorem test_decode_empty : decodeTableWord 8 0b00000000 = some .empty := by decide
theorem test_decode_lineReset : decodeTableWord 48 0x3F5445534552 = some .lineReset := by decide
theorem test_decode_lineStatus : decodeTableWord 56 0x3F535554415453 = some .lineStatus := by decide
theorem test_decode_lineFaultReg : decodeTableWord 80 0x3F4745525F544C554146 = some .lineFaultReg := by decide
theorem test_decode_lineDisable : decodeTableWord 64 0x3F454C4241534944 = some .lineDisable := by decide
theorem test_decode_lineRelialok : decodeTableWord 72 0x3F4B4F4C41494C4552 = some .lineRelialok := by decide

/-- DEC6 to DEC17: near misses decode to `None`. -/
theorem test_decode_near_misses :
    ([[], ascii ['r', 'e', 's', 'e', 't', '?'], ascii ['R', 'E', 'S', 'E', 'T'],
      ascii ['D', 'i', 's', 'a', 'b', 'l', 'e', '?'], ascii ['R', 'E', 'S', 'E', 'T', '?', ' '],
      ascii [' ', 'R', 'E', 'S', 'E', 'T', '?'], ascii ['R', 'E', 'S', 'E', 'T', '?', '\r'],
      ascii ['F', 'A', 'U', 'L', 'T', '_', 'R', 'E', 'G'], ascii ['O', 'C', 'T', 'O', '-', 'L', 'O', 'K'],
      ascii ['R', 'E', 'L', 'I', 'A', '-', 'L', 'O', 'K', '?'],
      ascii ['S', 'T', 'A', 'T', 'U', 'S', '?', 'S', 'T', 'A', 'T', 'U', 'S', '?'],
      0xFF :: ascii ['R', 'E', 'S', 'E', 'T', '?']].map decodeCommand).all (· == none) = true := by decide

/-- R71: the literals are the ASCII of the source's text. -/
theorem test_literals_are_ascii :
    lineLiteral .reset = ascii ['R', 'E', 'S', 'E', 'T', '?'] ∧
    lineLiteral .status = ascii ['S', 'T', 'A', 'T', 'U', 'S', '?'] ∧
    lineLiteral .faultRegister = ascii ['F', 'A', 'U', 'L', 'T', '_', 'R', 'E', 'G', '?'] ∧
    lineLiteral .disable = ascii ['D', 'I', 'S', 'A', 'B', 'L', 'E', '?'] ∧
    lineLiteral .model = ascii ['R', 'E', 'L', 'I', 'A', 'L', 'O', 'K', '?'] := by decide

/-- R78: the tokens are the ASCII of the source's text. -/
theorem test_tokens_are_ascii :
    replyText .active = ascii ['A', 'C', 'T', 'I', 'V', 'E'] ∧
    replyText .resetSuccess = ascii ['R', 'E', 'S', 'E', 'T', '_', 'S', 'U', 'C', 'C', 'E', 'S', 'S'] ∧
    replyToken (.resetFail 0) = ascii ['R', 'E', 'S', 'E', 'T', '_', 'F', 'A', 'I', 'L'] ∧
    replyToken (.status 0) = ascii ['S', 'T', 'A', 'T', 'U', 'S'] ∧
    replyToken (.faultReg 0) = ascii ['F', 'A', 'U', 'L', 'T', '_', 'R', 'E', 'G'] ∧
    replyText .deactive = ascii ['D', 'E', 'A', 'C', 'T', 'I', 'V', 'E'] ∧
    replyText .disableSuccess =
      ascii ['D', 'I', 'S', 'A', 'B', 'L', 'E', '_', 'S', 'U', 'C', 'C', 'E', 'S', 'S'] ∧
    replyText .identity = ascii ['O', 'C', 'T', 'O', '-', 'L', 'O', 'K'] ∧
    replyText .manualReset = ascii ['M', 'A', 'N', 'U', 'A', 'L', '_', 'R', 'E', 'S', 'E', 'T'] ∧
    replyText .manualDisable = ascii ['M', 'A', 'N', 'U', 'A', 'L', '_', 'D', 'I', 'S', 'A', 'B', 'L', 'E'] ∧
    replyToken (.fault 0) = ascii ['F', 'A', 'U', 'L', 'T'] := by decide

/-! ### The codec (CW3, CW4, CW8, CW9, CW10, CW14; S7, S9 to S13) -/

theorem test_packCsw :
    packCsw 0xFF 0x00 = 0xAAAA ∧ packCsw 0x00 0xFF = 0x5555 ∧ packCsw 0xFF 0xFB = 0xFFEF ∧
    packCsw 0x0F 0x05 = 0x00BB ∧ packCsw 0xA5 0x3C = 0x8D72 ∧ packCsw 0x01 0x80 = 0x4002 := by decide
theorem test_channelPair :
    channelPair 0xFFEF 3 = 0b10 ∧ channelPair 0x8D72 8 = 0b10 ∧ channelPair 0x8D72 1 = 0b10 := by decide
theorem test_ser8 : ser8 0xA5 = ascii ['1', '0', '1', '0', '0', '1', '0', '1'] := by decide
theorem test_ser16 :
    ser16 0x8D72 =
      ascii ['1', '0', '0', '0', '1', '1', '0', '1', '0', '1', '1', '1', '0', '0', '1', '0'] := by decide
theorem test_deser8 :
    deser8 (ascii ['1', '0', '1', '0', '0', '1', '0', '1']) = some 0xA5 ∧
    deser8 (ascii ['1', '0', '1', '0', '0', '1', '0']) = none ∧
    deser8 (ascii ['1', '0', '1', '0', '0', '1', '0', '1', '1']) = none ∧
    deser8 (ascii ['1', '0', '1', '0', '0', '1', '0', 'x']) = none := by decide
theorem test_deser16 :
    deser16 (ascii ['1', '0', '0', '0', '1', '1', '0', '1', '0', '1', '1', '1', '0', '0', '1', '0']) =
      some 0x8D72 := by decide

/-! ### One step of each instruction (DEC1 to DEC5, A2, A7 to A9, X1 to X17) -/

theorem test_reset_replies_active :
    after (exec .reset { inState (.reset 0) with ia := true }) (fun s => (s.obs, s.ds)) =
      some ([.line (ascii ['A', 'C', 'T', 'I', 'V', 'E'])], .idle) := by decide
/-- P1, step 8. -/
theorem test_reset_replies_fail :
    after (exec .reset { inState (.reset 4) with tmpEn := 0xFF, st := 0xFB }) (fun s => s.obs) =
      some [.line (ascii ['R', 'E', 'S', 'E', 'T', '_', 'F', 'A', 'I', 'L', ' ',
        '1', '1', '1', '1', '1', '1', '1', '1', '1', '1', '1', '0', '1', '1', '1', '1'])] := by decide
theorem test_status_holds_enables :
    after (exec .status { inState (.status 0) with en := 0xA5 }) (fun s => (s.tmpEn, s.ds)) =
      some (0xA5, .status 1) := by decide
/-- X6: the held sample is used, not the level. -/
theorem test_status_replies :
    after (exec .status { inState (.status 1) with en := 0xFF, tmpEn := 0x00, st := 0xFF }) (fun s => s.obs) =
      some [.line (ascii ['S', 'T', 'A', 'T', 'U', 'S', ' ',
        '0', '1', '0', '1', '0', '1', '0', '1', '0', '1', '0', '1', '0', '1', '0', '1'])] := by decide
theorem test_faultRegister_replies :
    after (exec .faultRegister { inState .faultRegister with fr := 0x5A }) (fun s => (s.obs, s.fr)) =
      some ([.line (ascii ['F', 'A', 'U', 'L', 'T', '_', 'R', 'E', 'G', ' ',
        '0', '1', '0', '1', '1', '0', '1', '0'])], 0x5A) := by decide
theorem test_disable_masks :
    after (exec .disable (inState (.disable 1))) (fun s => (s.imask, s.ds)) = some (true, .disable 2) := by decide
/-- X11: a failed disable gives no reply. -/
theorem test_disable_fails_silently :
    after (exec .disable { inState (.disable 4) with ia := true }) (fun s => (s.obs, s.ds)) =
      some ([], .idle) := by decide
theorem test_model_replies :
    after (exec .model (inState .model)) (fun s => s.obs) =
      some [.line (ascii ['O', 'C', 'T', 'O', '-', 'L', 'O', 'K'])] := by decide
theorem test_manualReset_replies :
    after (exec .manualReset (inState .manualReset)) (fun s => (s.obs, s.ds)) =
      some ([.line (ascii ['M', 'A', 'N', 'U', 'A', 'L', '_', 'R', 'E', 'S', 'E', 'T'])], .idle) := by decide
theorem test_manualDisable_drains :
    after (exec .manualDisable { State.reset with par := 0xC1 }) (fun s => (s.par, s.ds)) =
      some (0x00, .manualDisable) := by decide
theorem test_fault_replies :
    after (exec .fault { inState .fault with fr := 0x04 }) (fun s => s.obs) =
      some [.line (ascii ['F', 'A', 'U', 'L', 'T', ' ', '0', '0', '0', '0', '0', '1', '0', '0'])] := by decide
theorem test_empty_has_no_step : after (exec .empty State.reset) id = some State.reset := by decide
theorem test_lineReset_stages :
    after (exec .lineReset { State.reset with rxq := [ascii ['R', 'E', 'S', 'E', 'T', '?']] })
      (fun s => (s.par, s.rxq)) = some (0x80, []) := by decide
/-- A3: the pending Fault is lost. -/
theorem test_lineStatus_overwrites :
    after (exec .lineStatus { State.reset with
        par := 0xC2, rxq := [ascii ['S', 'T', 'A', 'T', 'U', 'S', '?']] }) (fun s => s.par) = some 0x81 := by decide
/-- DEC19: masked, the line waits. -/
theorem test_lineStatus_waits_while_masked :
    after (exec .lineStatus { State.reset with
        imask := true, rxq := [ascii ['S', 'T', 'A', 'T', 'U', 'S', '?']] }) (fun s => (s.par, s.rxq.length)) =
      some (0x00, 1) := by decide
theorem test_lineFaultReg_stages :
    after (exec .lineFaultReg { State.reset with
        rxq := [ascii ['F', 'A', 'U', 'L', 'T', '_', 'R', 'E', 'G', '?']] }) (fun s => s.par) = some 0x82 := by decide
theorem test_lineDisable_stages :
    after (exec .lineDisable { State.reset with
        rxq := [ascii ['D', 'I', 'S', 'A', 'B', 'L', 'E', '?']] }) (fun s => s.par) = some 0x83 := by decide
theorem test_lineRelialok_stages :
    after (exec .lineRelialok { State.reset with
        rxq := [ascii ['R', 'E', 'L', 'I', 'A', 'L', 'O', 'K', '?']] }) (fun s => s.par) = some 0x84 := by decide

/-! ### One turn of the other agents (A8, A9, DEC18, EDG1 to EDG13) and one step of the machine -/

theorem test_reserved_words_fault :
    isReservedFault (takeTurn .deferred .dispatcher { State.reset with par := 0x7F }) = true ∧
    isReservedFault (takeTurn .deferred .dispatcher { State.reset with par := 0x85 }) = true := by decide
theorem test_unknown_line_is_discarded :
    after (takeTurn .deferred .lineDecoder { State.reset with
        par := 0xC2, rxq := [ascii ['H', 'E', 'L', 'L', 'O']] }) (fun s => (s.par, s.rxq)) =
      some (0xC2, []) := by decide
theorem test_trip_accumulates :
    after (takeTurn .deferred (.env (.trip 0x04)) { State.reset with fr := 0x10 }) (fun s => s.fr) =
      some 0x14 := by decide
theorem test_edges_masked :
    after (takeTurn .deferred (.env (.setFl true)) { State.reset with imask := true }) (fun s => s.pendF) =
      some true ∧
    after (takeTurn .dropped (.env (.setFl true)) { State.reset with imask := true }) (fun s => s.pendF) =
      some false := by decide
theorem test_edges_only_rise :
    after (takeTurn .deferred (.env (.setIa true)) State.reset) (fun s => s.pendA) = some true ∧
    after (takeTurn .deferred (.env (.setIa false)) { State.reset with ia := true }) (fun s => s.pendA) =
      some false ∧
    after (takeTurn .deferred (.env (.setIa true)) { State.reset with ia := true }) (fun s => s.pendA) =
      some false := by decide
theorem test_services_classify :
    after (takeTurn .deferred .activeEdgeService { State.reset with pendA := true, par := 0x81 })
      (fun s => (s.pendA, s.par)) = some (false, 0xC0) ∧
    after (takeTurn .deferred .faultEdgeService { State.reset with pendF := true })
      (fun s => (s.pendF, s.par)) = some (false, 0xC1) ∧
    after (takeTurn .deferred .faultEdgeService { State.reset with pendF := true, fr := 0x80 })
      (fun s => (s.pendF, s.par)) = some (false, 0xC2) := by decide
theorem test_step_runs_a_placed_word :
    after (step (State.reset.withFetchWord 8 0x83)) (fun s => (s.par, s.ds)) = some (0x00, .disable 0) := by decide
theorem test_step_runs_a_placed_line :
    after (step (State.reset.withFetchWord 72 0x3F4B4F4C41494C4552)) (fun s => (s.par, s.rxq)) =
      some (0x84, []) := by decide

/-! ### Witnesses: the hypotheses of the statements can be met -/

theorem witness_PackCswPlacesEveryBit : (0 : Nat) < 8 ∧ (7 : Nat) < 8 := by decide
theorem witness_PairReadsChannelBack : ((1 : Nat) ≤ 1 ∧ (1 : Nat) ≤ 8) ∧ ((1 : Nat) ≤ 8 ∧ (8 : Nat) ≤ 8) := by decide
theorem witness_PackCswIsBijective : (0 : Nat) < 8 ∧ (7 : Nat) < 8 := by decide
theorem witness_PayloadsAreMostSignificantBitFirst :
    ((0 : Nat) < 8 ∧ (7 : Nat) < 8) ∧ ((0 : Nat) < 16 ∧ (15 : Nat) < 16) := by decide
theorem witness_DeserDefinedExactlyOnPayloads :
    deser8 (ascii ['1', '0', '1', '0', '0', '1', '0', '1']) = some 0xA5 ∧ (7 : Nat) < 8 ∧
    deser16 (ascii ['1', '0', '0', '0', '1', '1', '0', '1', '0', '1', '1', '1', '0', '0', '1', '0']) =
      some 0x8D72 ∧ (15 : Nat) < 16 := by decide
theorem witness_PayloadRoundTrip :
    deser8 (ascii ['1', '0', '1', '0', '0', '1', '0', '1']) = some 0xA5 ∧
    deser16 (ascii ['1', '0', '0', '0', '1', '1', '0', '1', '0', '1', '1', '1', '0', '0', '1', '0']) =
      some 0x8D72 := by decide
theorem witness_ReplyTextsDetermineTheReply : replyText (.fault 0x04) = replyText (.fault (0x05 - 0x01)) := by decide
theorem witness_DrainReadsAndClears :
    State.reset.par = 0x00 ∧ ({ State.reset with par := 0xC2 } : State).par = encAction (.event .fault) ∧
    parWf ({ State.reset with par := 0x7F } : State).par = false ∧
    ({ State.reset with par := 0x7F } : State).ds = .idle := by decide
theorem witness_ParIsSingleSlotMailbox :
    ({ State.reset with pendF := true } : State).par = slotWord none ∧
    after (runTurns .deferred [.faultEdgeService, .dispatcher] { State.reset with pendF := true })
      (fun s => s.ds) = some .manualDisable := by decide
theorem witness_BothServiceOrdersAdmitted :
    ({ State.reset with pendA := true, pendF := true } : State).pendA = true ∧
    ({ State.reset with pendA := true, pendF := true } : State).pendF = true ∧
    ({ State.reset with pendA := true, pendF := true } : State).imask = false := by decide
theorem witness_MaskBlocksEveryProducer : ({ inState (.disable 2) with imask := true } : State).imask = true := by
  decide
theorem witness_TurnWithoutEnabledStepChangesNothing :
    turnEnabled .dispatcher State.reset = false ∧ turnEnabled .lineDecoder State.reset = false ∧
    turnEnabled .activeEdgeService State.reset = false ∧ turnEnabled .faultEdgeService State.reset = false := by decide
theorem witness_LineDecoderStep :
    (({ State.reset with rxq := [lineLiteral .reset] } : State).rxq = lineLiteral .reset :: [] ∧
      State.reset.imask = false ∧ decodeCommand (lineLiteral .reset) = some .reset) ∧
    (({ State.reset with rxq := [[]] } : State).rxq = [] :: [] ∧ decodeCommand [] = none) := by decide
theorem witness_CommandLinesStageTheirWords :
    State.reset.imask = false ∧
    ∀ c ∈ [Command.reset, .status, .faultRegister, .disable, .model],
      ({ State.reset with rxq := [lineLiteral c] } : State).rxq = lineLiteral c :: [] := by decide
theorem witness_LatchFollowsOnlyItsInputs :
    after (runTurns .deferred [.env (.trip 0x10), .env .rstok, .env (.trip 0x80)] State.reset) (fun s => s.fr) =
      some 0x80 := by decide
theorem witness_ActiveEdgeDetection :
    (State.reset.ia = false ∧ State.reset.imask = false) ∧
    ¬(({ State.reset with ia := true } : State).ia = false) := by decide
theorem witness_FaultEdgeDetection :
    (State.reset.fl = false ∧ State.reset.imask = false) ∧
    ¬(State.reset.fl = false ∧ true = true ∧
      (({ State.reset with imask := true } : State).imask = false ∨ MaskedEdge.dropped = .deferred)) := by decide
theorem witness_ActiveEdgeServiceStagesManualReset :
    ({ State.reset with pendA := true } : State).pendA = true ∧
    ({ State.reset with pendA := true } : State).imask = false := by decide
theorem witness_FaultEdgeServiceClassifies :
    (({ State.reset with pendF := true } : State).pendF = true ∧
      ({ State.reset with pendF := true } : State).imask = false ∧
      ({ State.reset with pendF := true } : State).fr = 0x00) ∧
    ({ State.reset with pendF := true, fr := 0x01 } : State).fr ≠ 0x00 := by decide

/-- A state in the masked window with something pending and something emitted meets the invariant. -/
def maskedSample : State :=
  { State.reset with ds := .disable 2, imask := true, par := 0xC2, pendF := true, obs := [.line (replyText .active)] }

theorem witness_BlockInv : BlockInv maskedSample :=
  ⟨by decide, by decide, fun o ho => by
    have h : o = .line (replyText .active) := by simpa [maskedSample] using ho
    subst h; exact ⟨.active, rfl⟩⟩
/-- An idle state with something pending and something emitted meets the invariant. -/
theorem witness_DrainStepInIdle :
    (State.reset.ds = .idle ∧ State.reset.par = 0x00) ∧
    (({ State.reset with par := 0x84 } : State).ds = .idle ∧
      ({ State.reset with par := 0x84 } : State).par = encAction (.command .model)) ∧
    BlockInv { State.reset with par := 0x84, pendA := true } :=
  ⟨by decide, by decide, by decide, by decide, fun o ho => by simp [State.reset] at ho⟩
theorem witness_ResetActionSteps :
    (∀ k : Fin 5, (inState (.reset k)).ds = .reset k) ∧
    (inState (.reset 0)).ia = false ∧ ({ inState (.reset 0) with ia := true } : State).ia = true ∧
    (inState (.reset 2)).ia = false ∧ ({ inState (.reset 2) with ia := true } : State).ia = true := by decide
theorem witness_StatusActionSteps : ∀ k : Fin 2, (inState (.status k)).ds = .status k := by decide
theorem witness_FaultRegisterActionReportsLatch : (inState .faultRegister).ds = .faultRegister := by decide
theorem witness_DisableActionSteps :
    (∀ k : Fin 5, (inState (.disable k)).ds = .disable k) ∧
    (inState (.disable 0)).ia = false ∧ ({ inState (.disable 0) with ia := true } : State).ia = true ∧
    (inState (.disable 4)).ia = false ∧ ({ inState (.disable 4) with ia := true } : State).ia = true := by decide
theorem witness_ModelActionReportsIdentity : (inState .model).ds = .model := by decide
theorem witness_ManualResetActionReplies : (inState .manualReset).ds = .manualReset := by decide
theorem witness_ManualDisableActionReplies : (inState .manualDisable).ds = .manualDisable := by decide
theorem witness_FaultActionReportsLatch : (inState .fault).ds = .fault := by decide
theorem witness_OtherActionsWait :
    PendingAction.command .model ≠ .command .reset ∧
    actionOf (inState .model).ds = some (.command .model) ∧
    State.reset.ds = .idle ∧ ({ State.reset with par := 0x84 } : State).par = encAction (.command .model) := by decide
theorem witness_StepRunsTheDecodedInstruction :
    ({ State.reset with agenda := [.dispatcher] } : State).agenda = .dispatcher :: [] ∧
    State.reset.agenda = [] ∧
    (({ State.reset with par := 0xC0 } : State).ds = .idle ∧ decode (.par 0xC0) = .instr .manualReset) ∧
    actionOf (inState (.reset 4)).ds = some (.command .reset) ∧
    decode (.line (lineLiteral .model)) = .instr .lineRelialok := by decide
theorem witness_ActionsFrame :
    (after (exec (Instr.ofAction (.command .disable)) (inState (.disable 2))) (fun s => s.ds) = some (.disable 3) ∧
      (inState (.disable 2)).ds ≠ .idle ∧ (inState (.disable 2)).ds ≠ .disable 1 ∧
      (inState (.disable 2)).ds ≠ .disable 3 ∧ (inState (.disable 2)).ds ≠ .reset 3 ∧
      (inState (.disable 2)).ds ≠ .status 0) ∧
    (after (exec (Instr.ofAction (.command .disable)) { State.reset with par := 0x83 }) (fun s => s.ds) =
      some (.disable 0) ∧ State.reset.ds = .idle) := by decide
theorem witness_LinesFrame :
    after (exec (Instr.ofLine .disable) { State.reset with rxq := [lineLiteral .disable] }) (fun s => s.par) =
      some 0x83 := by decide
theorem witness_OnlyTheOwnersWrite :
    isPowerUp .dispatcher = false ∧
    after (takeTurn .deferred .dispatcher (inState (.disable 1))) (fun s => s.imask) = some true := by decide
theorem witness_OutputHistoryOnlyGrows :
    noPowerUp [.dispatcher, .dispatcher] = true ∧
    after (runTurns .deferred [.dispatcher, .dispatcher] (inState (.status 0))) (fun s => s.obs.length) =
      some 1 := by decide
theorem witness_ActionsEndWithinFiveOwnSteps :
    (inState (.reset 0)).ds ≠ .idle ∧
    5 ≤ [Turn.dispatcher, .dispatcher, .env (.setIa true), .dispatcher, .dispatcher, .dispatcher].count
      .dispatcher := by decide

/-- The whole run of a failed Disable, with its hypothesis that no earlier state is idle. -/
theorem witness_EveryActionRepliesAtMostOnce :
    noPowerUp (List.replicate 5 Turn.dispatcher) = true ∧
    ({ inState (.disable 0) with ia := true } : State).ds = startOf (.command .disable) ∧
    after (runTurns .deferred (List.replicate 5 .dispatcher) { inState (.disable 0) with ia := true })
      (fun s => s.ds) = some .idle ∧
    (∀ n : Fin 5, after (runTurns .deferred ((List.replicate 5 .dispatcher).take n.val)
      { inState (.disable 0) with ia := true }) (fun s => s.ds == .idle) = some false) ∧
    PendingAction.command .model ≠ .command .disable ∧ (inState .model).ds = startOf (.command .model) ∧
    after (runTurns .deferred [.dispatcher] (inState .model)) (fun s => s.ds) = some .idle := by decide
theorem witness_StatusIsIdempotent :
    (∀ t ∈ [Turn.lineDecoder, .dispatcher], t ∈ blockTurns) ∧
    (inState (.status 0)).ds = .status 0 ∧
    after (runTurns .deferred ([.dispatcher, .dispatcher] ++ [.lineDecoder, .dispatcher])
      { inState (.status 0) with rxq := [lineLiteral .status] }) (fun s => s.ds) = some (.status 0) ∧
    after (runTurns .deferred [.dispatcher, .dispatcher] (inState (.status 0))) (fun s => s.ds) =
      some .idle := by decide
theorem witness_FaultPayloadIsReadLate : (inState .fault).ds = .fault := by decide
theorem witness_ClassificationIsReadLate :
    State.reset.fl = false ∧ State.reset.imask = false ∧ (0x01 : Byte) ≠ 0x00 := by decide
theorem witness_StatusPayloadMixesTwoInstants :
    (inState (.status 0)).ds = .status 0 ∧ (inState (.reset 3)).ds = .reset 3 := by decide
theorem witness_RemoteResetEchoes :
    (inState (.reset 1)).ds = .reset 1 ∧ (inState (.reset 1)).ia = false ∧ (inState (.reset 1)).imask = false := by
  decide
theorem witness_RemoteDisableEchoes :
    ({ inState (.disable 2) with imask := true } : State).ds = .disable 2 ∧
    ({ inState (.disable 2) with imask := true } : State).imask = true ∧
    ({ inState (.disable 2) with imask := true } : State).fl = false ∧
    ({ inState (.disable 2) with imask := true } : State).fr = 0x00 ∧
    ({ inState (.disable 2) with imask := true } : State).pendF = false := by decide
theorem witness_MaskedWindowLosesNothing :
    maskedSample.imask = true ∧ maskedSample.ds ≠ .idle ∧ isPowerUp (.env (.rx [])) = false ∧
    after (takeTurn .deferred (.env (.rx [])) maskedSample) (fun s => s.rxq) = some [[]] ∧
    maskedSample.pendF = true ∧ ({ maskedSample with pendA := true } : State).pendA = true := by decide
theorem witness_HeldEnableIsDeadOutsideItsReaders :
    (inState (.reset 3)).ds ≠ .reset 4 ∧ (inState (.reset 3)).ds ≠ .status 1 ∧
    after (runTurns .deferred [.dispatcher] (inState (.reset 3))) (fun s => s.ds) = some (.reset 4) ∧
    isReservedFault (runTurns .deferred [.dispatcher] { State.reset with par := 0x85 }) = true := by decide

/-- The four agents in turn, for ever. -/
def roundRobin (n : Nat) : Turn :=
  match n % 4 with
  | 0 => .dispatcher
  | 1 => .lineDecoder
  | 2 => .activeEdgeService
  | _ => .faultEdgeService

theorem witness_FairSchedulesEndEveryAction :
    WeaklyFair .deferred roundRobin (inState (.reset 0)) ∧ (inState (.reset 0)).ds ≠ .idle := by
  refine ⟨fun t ht n _ => ?_, by decide⟩
  simp only [blockTurns, List.mem_cons, List.not_mem_nil, or_false] at ht
  rcases ht with rfl | rfl | rfl | rfl
  · exact ⟨4 * n, by omega, by simp [roundRobin]⟩
  · exact ⟨4 * n + 1, by omega, by simp [roundRobin, Nat.add_mod]⟩
  · exact ⟨4 * n + 2, by omega, by simp [roundRobin, Nat.add_mod]⟩
  · exact ⟨4 * n + 3, by omega, by simp [roundRobin, Nat.add_mod]⟩
theorem witness_EveryStepKeepsTheInvariant :
    BlockInv maskedSample ∧
    after (stepWith .deferred { maskedSample with agenda := [.dispatcher] }) (fun s => s.ds) =
      some (.disable 3) := ⟨witness_BlockInv, by decide⟩
theorem witness_NoRunReachesAFault : BlockInv maskedSample := witness_BlockInv

end Sys2Proof.Tests
end

/-! Settled here: a turn without an enabled step changes nothing (entry 5), and a step runs the scheduled turn, an
agent's turn being `exec` of the instruction it decodes (R13, R157, R201). -/

namespace Sys2Proof.Machine

/-! ### When an agent's step is not enabled -/

/-- The Line Decoder has no step: no line, or the mask (R137, R157). -/
theorem turnEnabled_lineDecoder_eq_false {s : State} :
    turnEnabled .lineDecoder s = false ↔ s.rxq = [] ∨ s.imask = true := by
  simp [turnEnabled, or_iff_not_imp_left]

/-- The Active-Edge Service has no step: no pending edge, or the mask (R137, R177). -/
theorem turnEnabled_activeEdgeService_eq_false {s : State} :
    turnEnabled .activeEdgeService s = false ↔ ¬(s.pendA = true ∧ s.imask = false) := by
  simp [turnEnabled]

/-- The Fault-Edge Service has no step: no pending edge, or the mask (R137, R178). -/
theorem turnEnabled_faultEdgeService_eq_false {s : State} :
    turnEnabled .faultEdgeService s = false ↔ ¬(s.pendF = true ∧ s.imask = false) := by
  simp [turnEnabled]

/-- The Dispatcher has no step: `Idle` with EMPTY (R201). -/
theorem turnEnabled_dispatcher_eq_false {s : State} :
    turnEnabled .dispatcher s = false ↔ s.ds = .idle ∧ s.par = emptyPar := by
  simp [turnEnabled]

/-! ### What its turn does then -/

theorem lineDecoderTurn_of_not_enabled {s : State} (h : s.rxq = [] ∨ s.imask = true) :
    lineDecoderTurn s = .next s := by
  rcases lineDecoderTurn_cases s with ⟨-, hl⟩ | ⟨line, rest, hq, hm, -, -⟩ | ⟨line, rest, c, hq, hm, -, -⟩
  · exact hl
  · simp [hq, hm] at h
  · simp [hq, hm] at h

theorem activeEdgeService_of_not_enabled {s : State} (h : ¬(s.pendA = true ∧ s.imask = false)) :
    activeEdgeService s = s := if_neg h

theorem faultEdgeService_of_not_enabled {s : State} (h : ¬(s.pendF = true ∧ s.imask = false)) :
    faultEdgeService s = s := if_neg h

/-! ### What an agent's turn decodes -/

/-- In `Idle` the Dispatcher's turn is the instruction that `PAR` decodes to (R201). -/
theorem dispatcherTurn_of_decode {s : State} {i : Instr} (hd : s.ds = .idle) (hi : decode (.par s.par) = .instr i) :
    dispatcherTurn s = exec i s := by
  simp [dispatcherTurn, fetchAction, actionOf_eq_none.2 hd, hi]

/-- The Line Decoder's turn is the instruction that the head of `rxq` decodes to (R157). -/
theorem lineDecoderTurn_of_decode {s : State} {i : Instr} {line : Line} {rest : List Line}
    (hq : s.rxq = line :: rest) (hi : decode (.line line) = .instr i) : lineDecoderTurn s = exec i s := by
  simp [lineDecoderTurn, hq, hi]

/-! ### The statements -/

/-- Settles O18, agent by agent: where an agent's enabling condition fails, its turn leaves the state; the
environment's steps and power-up are always enabled. -/
theorem turnWithoutEnabledStepChangesNothing : Obligations.TurnWithoutEnabledStepChangesNothing := by
  intro p t s h
  cases t with
  | lineDecoder => exact lineDecoderTurn_of_not_enabled (turnEnabled_lineDecoder_eq_false.1 h)
  | activeEdgeService =>
    exact congrArg _ (activeEdgeService_of_not_enabled (turnEnabled_activeEdgeService_eq_false.1 h))
  | faultEdgeService =>
    exact congrArg _ (faultEdgeService_of_not_enabled (turnEnabled_faultEdgeService_eq_false.1 h))
  | dispatcher =>
    obtain ⟨hds, hpar⟩ := turnEnabled_dispatcher_eq_false.1 h
    exact dispatcherTurn_of_empty hds hpar
  | env e => cases h
  | powerUp d => cases h

/-- Settles O39: the schedule's two clauses, then the Dispatcher in `Idle`, the Dispatcher in an action, and the Line
Decoder. -/
theorem stepRunsTheDecodedInstruction : Obligations.StepRunsTheDecodedInstruction := by
  intro s
  refine ⟨?agenda, ?free, ?idle, ?action, ?line⟩
  case agenda => exact fun t rest h => stepWith_of_agenda h
  case free => exact fun h => stepWith_of_no_agenda h
  case idle => exact fun p i hds hi => dispatcherTurn_of_decode hds hi
  case action => exact fun p a ha => dispatcherTurn_of_action ha
  case line => exact fun p i line rest hq hi => lineDecoderTurn_of_decode hq hi

end Sys2Proof.Machine

/-! Settled here: what each agent's step writes and what it leaves (R39), that the value in `tmp_en` is dead outside the
two steps that read it (R31, R202), the latch and the output history along a run, reset, the invariant of the block, and
the terminators. -/

namespace Sys2Proof.Machine

/-! ### What the other agents' steps do and write -/

theorem lineDecoderTurn_of_unrecognised {s : State} {line : Line} {rest : List Line} (hq : s.rxq = line :: rest)
    (hm : s.imask = false) (hc : decodeCommand line = none) :
    lineDecoderTurn s = .next { s with rxq := rest } := by
  simp [lineDecoderTurn, hq, decode, decodeLine, hc, discardLine, hm, State.setRxq]

theorem lineDecoderTurn_of_command {s : State} {line : Line} {rest : List Line} {c : Command}
    (hq : s.rxq = line :: rest) (hm : s.imask = false) (hc : decodeCommand line = some c) :
    lineDecoderTurn s = .next { s with rxq := rest, par := encAction (.command c) } := by
  obtain rfl := eq_lineLiteral_of_decodeCommand hc
  rw [lineDecoderTurn_of_decode hq (i := Instr.ofLine c) (by simp [decode, decodeLine, hc]), exec_ofLine,
    decodeStep_of_literal hq hm]

/-- The active-edge detector as one update of `pend_a` (R173). -/
theorem detectActiveEdge_eq (p : MaskedEdge) (new : Bool) (s : State) :
    detectActiveEdge p new s = { s with pendA := s.pendA || (risingEdge s.ia new && edgeKept p s) } := by
  unfold detectActiveEdge
  split
  · next h => simp [h, State.setPendA]
  · next h => simp [h]

/-- The fault-edge detector as one update of `pend_f` (R174). -/
theorem detectFaultEdge_eq (p : MaskedEdge) (new : Bool) (s : State) :
    detectFaultEdge p new s = { s with pendF := s.pendF || (risingEdge s.fl new && edgeKept p s) } := by
  unfold detectFaultEdge
  split
  · next h => simp [h, State.setPendF]
  · next h => simp [h]

/-- The Line Decoder writes `PAR` and `rxq` only (R39, R157). -/
theorem lineDecoderTurn_frame {s t : State} (h : lineDecoderTurn s = .next t) :
    ∃ par rxq, t = { s with par := par, rxq := rxq } := by
  rcases lineDecoderTurn_cases s with ⟨-, hl⟩ | ⟨line, rest, -, -, -, hl⟩ | ⟨line, rest, c, -, -, -, hl⟩ <;>
    cases hl.symm.trans h <;> exact ⟨_, _, rfl⟩

/-- The Active-Edge Service writes `PAR` and `pend_a` only (R39, R177). -/
theorem activeEdgeService_frame (s : State) :
    ∃ par pendA, activeEdgeService s = { s with par := par, pendA := pendA } := by
  unfold activeEdgeService; split <;> exact ⟨_, _, rfl⟩

/-- The Fault-Edge Service writes `PAR` and `pend_f` only (R39, R178). -/
theorem faultEdgeService_frame (s : State) :
    ∃ par pendF, faultEdgeService s = { s with par := par, pendF := pendF } := by
  unfold faultEdgeService; split <;> exact ⟨_, _, rfl⟩

/-- The environment writes none of the Dispatcher's elements, and not `PAR` (R38, R39). -/
theorem envStep_frame (p : MaskedEdge) (e : EnvStep) (s : State) :
    ∃ fr pendA pendF rxq en st ia fl, envStep p e s =
      { s with fr := fr, pendA := pendA, pendF := pendF, rxq := rxq, en := en, st := st, ia := ia, fl := fl } := by
  cases e with
  | setIa new => exact ⟨_, _, _, _, _, _, _, _, by rw [envStep, detectActiveEdge_eq]; rfl⟩
  | setFl new => exact ⟨_, _, _, _, _, _, _, _, by rw [envStep, detectFaultEdge_eq]; rfl⟩
  | _ => exact ⟨_, _, _, _, _, _, _, _, rfl⟩

theorem activeEdgeService_ds (s : State) : (activeEdgeService s).ds = s.ds := by
  obtain ⟨_, _, hf⟩ := activeEdgeService_frame s
  rw [hf]

theorem faultEdgeService_ds (s : State) : (faultEdgeService s).ds = s.ds := by
  obtain ⟨_, _, hf⟩ := faultEdgeService_frame s
  rw [hf]

theorem envStep_ds (p : MaskedEdge) (e : EnvStep) (s : State) : (envStep p e s).ds = s.ds := by
  obtain ⟨_, _, _, _, _, _, _, _, hf⟩ := envStep_frame p e s
  rw [hf]

/-! ### What the Dispatcher's steps write -/

/-- The writers' column of the Dispatcher (R39). -/
theorem ActionStep.frame {s t : State} (h : ActionStep s t) :
    ∃ par ds tmpEn imask obs, t = { s with par := par, ds := ds, tmpEn := tmpEn, imask := imask, obs := obs } := by
  cases h <;> exact ⟨_, _, _, _, _, rfl⟩

/-- In `Idle` the Dispatcher only drains (R201). -/
theorem ActionStep.of_idle {s t : State} (h : ActionStep s t) (hidle : s.ds = .idle) :
    t = s ∨ ∃ a, s.par = encAction a ∧ t = { s with par := emptyPar, ds := startOf a } := by
  cases h with
  | wait => exact .inl rfl
  | drain a _ hpar => exact .inr ⟨a, hpar, rfl⟩
  | _ => simp_all

/-- The Dispatcher writes `PAR` at the drain only, and then it writes EMPTY (R132, R201). -/
theorem ActionStep.par_eq {s t : State} (h : ActionStep s t) :
    t.par = s.par ∨ s.ds = .idle ∧ t.par = emptyPar := by
  cases h with
  | drain a hds _ => exact .inr ⟨hds, rfl⟩
  | _ => exact .inl rfl

/-- `imask` is written at Disable steps 1 and 3 only (R208). -/
theorem ActionStep.imask_eq {s t : State} (h : ActionStep s t) (h1 : s.ds ≠ .disable 1) (h3 : s.ds ≠ .disable 3) :
    t.imask = s.imask := by
  cases h with
  | disableMask hds => exact absurd hds h1
  | disableUnmask hds => exact absurd hds h3
  | _ => rfl

/-- `tmp_en` is written at Reset step 3 and Status step 0 only (R205, R206). -/
theorem ActionStep.tmpEn_eq {s t : State} (h : ActionStep s t) (h3 : s.ds ≠ .reset 3) (h0 : s.ds ≠ .status 0) :
    t.tmpEn = s.tmpEn := by
  cases h with
  | resetHoldEn hds => exact absurd hds h3
  | statusHoldEn hds => exact absurd hds h0
  | _ => rfl

/-- What one step can append to a history: at most one transaction, a legal one (R35, R78). -/
def AppendsAtMostOne (h k : List Obs) : Prop :=
  ∃ added, k = h ++ added ∧ added.length ≤ 1 ∧ ∀ o ∈ added, LegalObs o

theorem AppendsAtMostOne.refl (h : List Obs) : AppendsAtMostOne h h := ⟨[], by simp⟩

theorem appendsAtMostOne_reply (h : List Obs) (r : Reply) : AppendsAtMostOne h (h ++ [.line (replyText r)]) :=
  ⟨[.line (replyText r)], rfl, le_rfl, by simp [LegalObs]⟩

theorem appendsAtMostOne_pulse (h : List Obs) (x : Actuator) : AppendsAtMostOne h (h ++ [.pulse x]) :=
  ⟨[.pulse x], rfl, le_rfl, by simp [LegalObs]⟩

theorem AppendsAtMostOne.grows {h k : List Obs} (ha : AppendsAtMostOne h k) : h <+: k := by
  obtain ⟨added, rfl, -, -⟩ := ha
  exact ⟨added, rfl⟩

theorem AppendsAtMostOne.legal {h k : List Obs} (ha : AppendsAtMostOne h k) (hl : ∀ o ∈ h, LegalObs o) :
    ∀ o ∈ k, LegalObs o := by
  obtain ⟨added, rfl, -, hadded⟩ := ha
  exact List.forall_mem_append.2 ⟨hl, hadded⟩

/-- A step of the Dispatcher replies, pulses or puts out nothing (R203, R214). -/
theorem ActionStep.obs_appends {s t : State} (h : ActionStep s t) : AppendsAtMostOne s.obs t.obs := by
  cases h
  case resetPulse | disablePulse => exact appendsAtMostOne_pulse _ _
  case wait | drain | resetInactive | resetFailed | resetHoldEn | statusHoldEn | disableActive | disableMask |
      disableUnmask | disableSilent => exact .refl _
  all_goals exact appendsAtMostOne_reply _ _

/-! ### Outcomes that differ in `tmp_en` at most -/

/-- The Dispatcher's states whose step reads `tmp_en` (R205 step 4, R206 step 1). -/
def ReadsHeldEnable (d : DispState) : Prop := d = .reset 4 ∨ d = .status 1

/-- Two outcomes are equal, or they are next states that differ in `tmp_en` only while no step is about to read it. -/
inductive HeldEnableDead : Result → Result → Prop where
  | same (r : Result) : HeldEnableDead r r
  | next (s : State) (v : Byte) (hds : ¬ReadsHeldEnable s.ds) : HeldEnableDead (.next s) (.next (s.setTmpEn v))

/-- A next state answers a next state with the same other fields. -/
theorem HeldEnableDead.of_next {s : State} {r : Result} (h : HeldEnableDead (.next s) r) :
    ∃ v, r = .next { s with tmpEn := v } := by
  cases h with
  | same => exact ⟨s.tmpEn, rfl⟩
  | next _ v _ => exact ⟨v, rfl⟩

/-- A fault answers that fault. -/
theorem HeldEnableDead.of_fault {f : Fault} {r : Result} (h : HeldEnableDead (.fault f) r) : r = .fault f := by
  cases h; rfl

/-- A move to a state whose step does not read `tmp_en` keeps a difference in `tmp_en` dead. -/
theorem heldEnableDead_goto {d : DispState} (hd : ¬ReadsHeldEnable d) (s : State) (v : Byte) :
    HeldEnableDead (.next (goto d s)) (.next (goto d (s.setTmpEn v))) :=
  .next (goto d s) v hd

/-- The end of an action keeps a difference in `tmp_en` dead. -/
theorem heldEnableDead_finish (s : State) (v : Byte) :
    HeldEnableDead (.next (finish s)) (.next (finish (s.setTmpEn v))) :=
  .next (finish s) v (by simp [ReadsHeldEnable, finish_eq])

/-- A final reply that is not made from `tmp_en` keeps a difference in it dead. -/
theorem heldEnableDead_reply (r : Reply) (s : State) (v : Byte) :
    HeldEnableDead (.next (reply r s)) (.next (reply r (s.setTmpEn v))) :=
  heldEnableDead_finish (emit (replyText r) s) v

/-- A step that chooses by a condition on another field keeps a difference in `tmp_en` dead if both its branches do. -/
theorem heldEnableDead_ite {c : Prop} [Decidable c] {s t s' t' : State} (ht : HeldEnableDead (.next s) (.next s'))
    (he : HeldEnableDead (.next t) (.next t')) :
    HeldEnableDead (.next (if c then s else t)) (.next (if c then s' else t')) := by
  split_ifs
  · exact ht
  · exact he

theorem not_readsHeldEnable_startOf (a : PendingAction) : ¬ReadsHeldEnable (startOf a) := by
  cases a with
  | command c => cases c <;> simp [ReadsHeldEnable, startOf]
  | event e => cases e <;> simp [ReadsHeldEnable, startOf]

/-! ### The other agents' steps do not read `tmp_en` -/

theorem activeEdgeService_setTmpEn (v : Byte) (s : State) :
    activeEdgeService (s.setTmpEn v) = (activeEdgeService s).setTmpEn v := by
  by_cases h : s.pendA = true ∧ s.imask = false
  · rw [activeEdgeService_of_enabled h.1 h.2, activeEdgeService_of_enabled (s := s.setTmpEn v) h.1 h.2]; rfl
  · rw [activeEdgeService_of_not_enabled h, activeEdgeService_of_not_enabled (s := s.setTmpEn v) h]

theorem faultEdgeService_setTmpEn (v : Byte) (s : State) :
    faultEdgeService (s.setTmpEn v) = (faultEdgeService s).setTmpEn v := by
  by_cases h : s.pendF = true ∧ s.imask = false
  · rw [faultEdgeService_of_enabled h.1 h.2, faultEdgeService_of_enabled (s := s.setTmpEn v) h.1 h.2]; rfl
  · rw [faultEdgeService_of_not_enabled h, faultEdgeService_of_not_enabled (s := s.setTmpEn v) h]

theorem envStep_setTmpEn (p : MaskedEdge) (e : EnvStep) (v : Byte) (s : State) :
    envStep p e (s.setTmpEn v) = (envStep p e s).setTmpEn v := by
  cases e with
  | setIa new => simp only [envStep, detectActiveEdge_eq]; rfl
  | setFl new => simp only [envStep, detectFaultEdge_eq]; rfl
  | _ => rfl

/-! ### The Dispatcher's steps -/

section
variable {s : State} (hr : ¬ReadsHeldEnable s.ds) (v : Byte)
include hr

theorem beginAction_heldEnableDead (a : PendingAction) :
    HeldEnableDead (beginAction a s) (beginAction a (s.setTmpEn v)) := by
  unfold beginAction
  rcases drain_cases s with ⟨hp, hd⟩ | ⟨b, hp, hd⟩ | ⟨h0, hn, hd⟩
  · rw [hd, drain_of_empty (s := s.setTmpEn v) hp]
    exact .next s v hr
  · rw [hd, drain_of_action (s := s.setTmpEn v) hp]
    by_cases hb : b = a
    · simp only [if_pos hb]
      exact heldEnableDead_goto (not_readsHeldEnable_startOf a) _ v
    · simp only [if_neg hb]
      exact .next s v hr
  · have hd' : drain (s.setTmpEn v) = .reserved := by simp [drain, h0, hn]
    rw [hd, hd']
    exact .same _

theorem execReset_heldEnableDead : HeldEnableDead (execReset s) (execReset (s.setTmpEn v)) := by
  unfold execReset
  simp only [State.setTmpEn_ds]
  split
  case h_1 => exact beginAction_heldEnableDead hr v _
  case h_2 =>
    refine heldEnableDead_ite (c := s.ia = true) ?_ ?_
    · exact heldEnableDead_reply _ s v
    · exact heldEnableDead_goto (by simp [ReadsHeldEnable]) s v
  case h_3 => exact heldEnableDead_goto (by simp [ReadsHeldEnable]) (pulse .reset s) v
  case h_4 =>
    refine heldEnableDead_ite (c := s.ia = true) ?_ ?_
    · exact heldEnableDead_reply _ s v
    · exact heldEnableDead_goto (by simp [ReadsHeldEnable]) s v
  case h_5 => exact .same _
  case h_6 hd => exact absurd (.inl hd) hr
  case h_7 => exact .next s v hr

theorem execStatus_heldEnableDead : HeldEnableDead (execStatus s) (execStatus (s.setTmpEn v)) := by
  unfold execStatus
  simp only [State.setTmpEn_ds]
  split
  case h_1 => exact beginAction_heldEnableDead hr v _
  case h_2 => exact .same _
  case h_3 hd => exact absurd (.inr hd) hr
  case h_4 => exact .next s v hr

theorem execDisable_heldEnableDead : HeldEnableDead (execDisable s) (execDisable (s.setTmpEn v)) := by
  unfold execDisable
  simp only [State.setTmpEn_ds]
  split
  case h_1 => exact beginAction_heldEnableDead hr v _
  case h_2 =>
    refine heldEnableDead_ite (c := s.ia = true) ?_ ?_
    · exact heldEnableDead_goto (by simp [ReadsHeldEnable]) s v
    · exact heldEnableDead_reply _ s v
  case h_3 => exact heldEnableDead_goto (by simp [ReadsHeldEnable]) (suppressInterrupts s) v
  case h_4 => exact heldEnableDead_goto (by simp [ReadsHeldEnable]) (pulse .disable s) v
  case h_5 => exact heldEnableDead_goto (by simp [ReadsHeldEnable]) (restoreInterrupts s) v
  case h_6 =>
    refine heldEnableDead_ite (c := s.ia = true) ?_ ?_
    · exact heldEnableDead_finish s v
    · exact heldEnableDead_reply _ s v
  case h_7 => exact .next s v hr

/-- An action with one step, which replies with nothing made from `tmp_en` (R207, R209 to R212). -/
theorem oneReply_heldEnableDead {a : PendingAction} {d : DispState} {r : State → Reply}
    (hexec : ∀ u, exec (Instr.ofAction a) u =
      if u.ds = .idle then beginAction a u else if u.ds = d then .next (reply (r u) u) else .next u)
    (hrep : r (s.setTmpEn v) = r s) :
    HeldEnableDead (exec (Instr.ofAction a) s) (exec (Instr.ofAction a) (s.setTmpEn v)) := by
  simp only [hexec, State.setTmpEn_ds, hrep]
  split_ifs
  · exact beginAction_heldEnableDead hr v a
  · exact heldEnableDead_reply _ s v
  · exact .next s v hr

/-- Every action's instruction keeps a difference in `tmp_en` dead. -/
theorem exec_ofAction_heldEnableDead (a : PendingAction) :
    HeldEnableDead (exec (Instr.ofAction a) s) (exec (Instr.ofAction a) (s.setTmpEn v)) := by
  cases a with
  | command c =>
    cases c with
    | reset => exact execReset_heldEnableDead hr v
    | status => exact execStatus_heldEnableDead hr v
    | faultRegister =>
      exact oneReply_heldEnableDead hr v (d := .faultRegister) (r := fun u => .faultReg (readFr u))
        (fun u => by cases hd : u.ds <;> simp [exec, Instr.ofAction, execFaultRegister, hd]) rfl
    | disable => exact execDisable_heldEnableDead hr v
    | model =>
      exact oneReply_heldEnableDead hr v (d := .model) (r := fun _ => .identity)
        (fun u => by cases hd : u.ds <;> simp [exec, Instr.ofAction, execModel, hd]) rfl
  | event e =>
    cases e with
    | manualReset =>
      exact oneReply_heldEnableDead hr v (d := .manualReset) (r := fun _ => .manualReset)
        (fun u => by cases hd : u.ds <;> simp [exec, Instr.ofAction, execManualReset, hd]) rfl
    | manualDisable =>
      exact oneReply_heldEnableDead hr v (d := .manualDisable) (r := fun _ => .manualDisable)
        (fun u => by cases hd : u.ds <;> simp [exec, Instr.ofAction, execManualDisable, hd]) rfl
    | fault =>
      exact oneReply_heldEnableDead hr v (d := .fault) (r := fun u => .fault (readFr u))
        (fun u => by cases hd : u.ds <;> simp [exec, Instr.ofAction, execFault, hd]) rfl

/-- Fetching does not read `tmp_en`, so the Dispatcher's turn executes the same instruction. -/
theorem dispatcherTurn_heldEnableDead : HeldEnableDead (dispatcherTurn s) (dispatcherTurn (s.setTmpEn v)) := by
  cases ha : actionOf s.ds with
  | some a =>
    rw [dispatcherTurn_of_action ha, dispatcherTurn_of_action (s := s.setTmpEn v) ha]
    exact exec_ofAction_heldEnableDead hr v a
  | none =>
    have hds := actionOf_eq_none.1 ha
    rcases drain_cases s with ⟨hp, -⟩ | ⟨a, hp, -⟩ | ⟨h0, hn, -⟩
    · rw [dispatcherTurn_of_empty hds hp, dispatcherTurn_of_empty (s := s.setTmpEn v) hds hp]
      exact .next s v hr
    · rw [dispatcherTurn_of_idle hds hp, dispatcherTurn_of_idle (s := s.setTmpEn v) hds hp]
      exact exec_ofAction_heldEnableDead hr v a
    · rw [dispatcherTurn_of_reserved hds h0 hn, dispatcherTurn_of_reserved (s := s.setTmpEn v) hds h0 hn]
      exact .same _

/-! ### The other agents' steps -/

/-- A step that neither reads nor writes `tmp_en` and leaves `ds` keeps a difference in `tmp_en` dead. -/
theorem heldEnableDead_of_commutes {f : State → State} (hf : f (s.setTmpEn v) = (f s).setTmpEn v)
    (hds : (f s).ds = s.ds) : HeldEnableDead (.next (f s)) (.next (f (s.setTmpEn v))) := by
  rw [hf]
  exact .next _ v (by rwa [hds])

theorem lineDecoderTurn_heldEnableDead : HeldEnableDead (lineDecoderTurn s) (lineDecoderTurn (s.setTmpEn v)) := by
  rcases lineDecoderTurn_cases s with ⟨hn, hl⟩ | ⟨line, rest, hq, hm, hc, hl⟩ | ⟨line, rest, c, hq, hm, hc, hl⟩
  · rw [hl, lineDecoderTurn_of_not_enabled (s := s.setTmpEn v) hn]
    exact .next s v hr
  · rw [hl, lineDecoderTurn_of_unrecognised (s := s.setTmpEn v) hq hm hc]
    exact .next { s with rxq := rest } v hr
  · rw [hl, lineDecoderTurn_of_command (s := s.setTmpEn v) hq hm hc]
    exact .next { s with rxq := rest, par := encAction (.command c) } v hr

/-- No turn tells apart two states that differ in `tmp_en` alone, before a step that does not read it. -/
theorem takeTurn_heldEnableDead (p : MaskedEdge) (t : Turn) :
    HeldEnableDead (takeTurn p t s) (takeTurn p t (s.setTmpEn v)) := by
  cases t with
  | lineDecoder => exact lineDecoderTurn_heldEnableDead hr v
  | activeEdgeService =>
    exact heldEnableDead_of_commutes hr v (activeEdgeService_setTmpEn v s) (activeEdgeService_ds s)
  | faultEdgeService =>
    exact heldEnableDead_of_commutes hr v (faultEdgeService_setTmpEn v s) (faultEdgeService_ds s)
  | dispatcher => exact dispatcherTurn_heldEnableDead hr v
  | env e => exact heldEnableDead_of_commutes hr v (envStep_setTmpEn p e v s) (envStep_ds p e s)
  | powerUp d => exact .same _

end

/-! ### Runs -/

/-- A run from two states that differ in `tmp_en` alone: the outcomes stay together turn by turn, until they are equal
or the run ends. -/
theorem runTurns_heldEnableDead (p : MaskedEdge) (ts : List Turn) {s : State} (hr : ¬ReadsHeldEnable s.ds)
    (v : Byte) :
    HeldEnableDead (runTurns p ts s) (runTurns p ts (s.setTmpEn v)) := by
  induction ts generalizing s v with
  | nil => exact .next s v hr
  | cons t ts ih =>
    have hstep := takeTurn_heldEnableDead hr v p t
    unfold runTurns
    generalize takeTurn p t s = r, takeTurn p t (s.setTmpEn v) = r' at hstep
    cases hstep with
    | same => exact .same _
    | next u _ hu => exact ih hu _

/-- Settles O55: the two runs are related by `HeldEnableDead`, which tells what each outcome of one is in the other. -/
theorem heldEnableIsDeadOutsideItsReaders : Obligations.HeldEnableIsDeadOutsideItsReaders := by
  intro p ts s v hreset hstatus
  have hrun := runTurns_heldEnableDead p ts (not_or.2 ⟨hreset, hstatus⟩) v
  exact ⟨fun s1 h1 => (h1 ▸ hrun).of_next, fun f hf => (hf ▸ hrun).of_fault⟩

/-! ### The frames -/

/-- Settles O40: an action's instruction is a step of the Dispatcher, and each clause is that step's. -/
theorem actionsFrame : Obligations.ActionsFrame := by
  intro a s t h
  have hstep := actionStep_of_exec h
  have hpar : s.ds ≠ .idle → t.par = s.par := fun hne => hstep.par_eq.resolve_right fun hd => hne hd.1
  have hobs : s.ds = .idle → t.obs = s.obs := fun hidle => by
    rcases hstep.of_idle hidle with rfl | ⟨b, -, rfl⟩ <;> rfl
  obtain ⟨added, hadded, hlen, -⟩ := hstep.obs_appends
  have himask := hstep.imask_eq
  have htmp := hstep.tmpEn_eq
  obtain ⟨par, ds, tmpEn, imask, obs, rfl⟩ := hstep.frame
  exact ⟨rfl, rfl, rfl, rfl, rfl, rfl, rfl, rfl, rfl, rfl, hpar, himask, htmp, hobs, added, hadded, hlen⟩

/-- Settles O41: a line's instruction is the Line Decoder's step on its literal. -/
theorem linesFrame : Obligations.LinesFrame := by
  intro c s t h
  rw [exec_ofLine] at h
  rcases decodeStep_cases c s with ⟨rest, hq, -, hd⟩ | ⟨-, hd⟩ <;> cases hd.symm.trans h
  · exact ⟨rfl, .inr ⟨hq, rfl⟩⟩
  · exact ⟨rfl, .inl ⟨rfl, rfl⟩⟩

/-- Settles O42, agent by agent from the frame of its step; of the environment's steps only those on `IA` and `FL` write
a second element, the pending bit that a rising edge sets. -/
theorem onlyTheOwnersWrite : Obligations.OnlyTheOwnersWrite := by
  intro p t s s' hpu h
  cases t with
  | lineDecoder =>
    obtain ⟨par, rxq, rfl⟩ := lineDecoderTurn_frame h
    simp
  | activeEdgeService =>
    obtain ⟨par, pendA, hf⟩ := activeEdgeService_frame s
    cases h
    simp [hf]
  | faultEdgeService =>
    obtain ⟨par, pendF, hf⟩ := faultEdgeService_frame s
    cases h
    simp [hf]
  | dispatcher =>
    obtain ⟨par, ds, tmpEn, imask, obs, rfl⟩ := (actionStep_of_dispatcherTurn h).frame
    simp
  | env e =>
    cases h
    cases e with
    | setIa new => cases new <;> simp [envStep, detectActiveEdge_eq, risingEdge]
    | setFl new => cases new <;> simp [envStep, detectFaultEdge_eq, risingEdge]
    | _ => simp [envStep]
  | powerUp d => cases hpu

/-- Settles O27: each of these environment steps is one field's update. -/
theorem environmentWritesItsOwnElements : Obligations.EnvironmentWritesItsOwnElements :=
  fun _ _ => ⟨fun _ => rfl, fun _ => rfl, fun _ => rfl⟩

/-! ### The latch along a run -/

/-- The latch's inputs act turn by turn. -/
theorem latchAfter_cons (t : Turn) (ts : List Turn) (v : Byte) :
    latchAfter (t :: ts) v = latchAfter ts (latchAfter [t] v) := by
  cases t with
  | env e => cases e <;> rfl
  | _ => rfl

/-- Only the latch's inputs and a power-up change `FR` (R172). -/
theorem takeTurn_fr_eq {p : MaskedEdge} {t : Turn} {s s' : State} (h : takeTurn p t s = .next s')
    (hpu : isPowerUp t = false) (hrstok : t ≠ .env .rstok) (htrip : ∀ v, t ≠ .env (.trip v)) : s'.fr = s.fr := by
  by_contra hne
  obtain ⟨hfr, -⟩ := onlyTheOwnersWrite p t s s' hpu h
  rcases hfr hne with ht | ⟨v, ht⟩
  · exact hrstok ht
  · exact htrip v ht

/-- One turn changes `FR` as the latch's inputs say (R172). -/
theorem takeTurn_fr {p : MaskedEdge} {t : Turn} {s s' : State} (h : takeTurn p t s = .next s') :
    s'.fr = latchAfter [t] s.fr := by
  cases t with
  | env e =>
    cases e with
    | trip | rstok => cases h; rfl
    | _ => exact takeTurn_fr_eq h rfl (by simp) (by simp)
  | powerUp d => cases h; rfl
  | _ => exact takeTurn_fr_eq h rfl (by simp) (by simp)

/-- Settles O22, by induction on the turns. -/
theorem latchFollowsOnlyItsInputs : Obligations.LatchFollowsOnlyItsInputs := by
  intro p ts s s' h
  induction ts generalizing s with
  | nil => cases h; rfl
  | cons t ts ih =>
    obtain ⟨u, hu, hr⟩ := runTurns_cons_eq_next h
    rw [latchAfter_cons, ← takeTurn_fr hu]
    exact ih u hr

/-! ### The output history along a run -/

/-- A turn that is no power-up appends at most one legal transaction. -/
theorem takeTurn_obs_appends {p : MaskedEdge} {t : Turn} {s s' : State} (hpu : isPowerUp t = false)
    (h : takeTurn p t s = .next s') : AppendsAtMostOne s.obs s'.obs := by
  cases turnStep_of_takeTurn h with
  | action _ ha => exact ha.obs_appends
  | env e =>
    obtain ⟨fr, pendA, pendF, rxq, en, st, ia, fl, he⟩ := envStep_frame p e s
    rw [he]
    exact .refl _
  | powerUp d => cases hpu
  | _ => exact .refl _

/-- Settles O43: every turn of the run appends. -/
theorem outputHistoryOnlyGrows : Obligations.OutputHistoryOnlyGrows := by
  intro p ts s s' hpu h
  have hno : ∀ t ∈ ts, isPowerUp t = false := by simpa [noPowerUp] using hpu
  exact runTurns_induction (P := fun u => s.obs <+: u.obs)
    (fun t ht _ _ hs hu => hs.trans (takeTurn_obs_appends (hno t ht) hu).grows) ⟨[], List.append_nil _⟩ h

/-! ### Reset and power-up -/

/-- Settles O47. -/
theorem resetValues : Obligations.ResetValues := ⟨rfl, rfl, rfl, rfl, rfl, rfl, rfl⟩

/-- Settles O48: the Dispatcher finds EMPTY in `Idle`. -/
theorem powerUpResetsTheBlock : Obligations.PowerUpResetsTheBlock := fun _ d s =>
  ⟨powerUp d s, rfl, rfl, rfl, rfl, rfl, rfl, rfl, rfl, rfl, rfl, rfl, rfl, rfl, rfl,
    dispatcherTurn_of_empty (s := powerUp d s) rfl rfl⟩

/-! ### The invariant -/

/-- Every staged word is legal (R75, R76). -/
theorem parWf_encAction (a : PendingAction) : parWf (encAction a) = true := by
  cases a with
  | command c => cases c <;> decide
  | event e => cases e <;> decide

/-- No action begins in the masked window (R208). -/
theorem startOf_not_masked (a : PendingAction) : ¬(startOf a = .disable 2 ∨ startOf a = .disable 3) := by
  cases a with
  | command c => cases c <;> simp [startOf]
  | event e => cases e <;> simp [startOf]

/-- A block at its reset values meets the invariant. -/
theorem blockInv_of_reset_values {s : State} (hpar : s.par = emptyPar) (hds : s.ds = .idle) (hmask : s.imask = false)
    (hobs : s.obs = []) : BlockInv s where
  par_legal := by rw [hpar]; decide
  mask_matches := by simp [hds, hmask]
  obs_legal := by simp [hobs]

theorem blockInv_powerUp (d : PowerUpDraws) (s : State) : BlockInv (powerUp d s) :=
  blockInv_of_reset_values rfl rfl rfl rfl

/-- Settles O57. -/
theorem invariantHoldsAtReset : Obligations.InvariantHoldsAtReset :=
  ⟨blockInv_of_reset_values rfl rfl rfl rfl, blockInv_powerUp⟩

/-- A step that leaves `ds`, `imask` and `obs` keeps the invariant if it leaves a legal word in `PAR`. -/
theorem BlockInv.of_frame {s t : State} (h : BlockInv s) (hpar : parWf t.par = true) (hds : t.ds = s.ds)
    (hmask : t.imask = s.imask) (hobs : t.obs = s.obs) : BlockInv t where
  par_legal := hpar
  mask_matches := by rw [hds, hmask]; exact h.mask_matches
  obs_legal := by rw [hobs]; exact h.obs_legal

/-- The mask is set with the move into the window, cleared with the move out of it, and no other step crosses the
window's border (R208). -/
theorem ActionStep.mask_matches {s t : State} (h : ActionStep s t)
    (hs : s.imask = true ↔ s.ds = .disable 2 ∨ s.ds = .disable 3) :
    t.imask = true ↔ t.ds = .disable 2 ∨ t.ds = .disable 3 := by
  cases h with
  | wait => exact hs
  | drain a hds _ => simpa [hds, startOf_not_masked a] using hs
  | disablePulse hds => simpa [hds] using hs
  | disableMask | disableUnmask => simp
  | _ => simp_all

theorem ActionStep.blockInv {s t : State} (h : ActionStep s t) (hs : BlockInv s) : BlockInv t where
  par_legal := by
    rcases h.par_eq with hp | ⟨-, hp⟩ <;> rw [hp]
    · exact hs.par_legal
    · decide
  mask_matches := h.mask_matches hs.mask_matches
  obs_legal := h.obs_appends.legal hs.obs_legal

/-- Every turn keeps the invariant. -/
theorem takeTurn_blockInv {p : MaskedEdge} {t : Turn} {s s' : State} (hs : BlockInv s)
    (h : takeTurn p t s = .next s') : BlockInv s' := by
  cases turnStep_of_takeTurn h with
  | noStep => exact hs
  | discard => exact hs.of_frame hs.par_legal rfl rfl rfl
  | command | activeEdge | faultEdge => exact hs.of_frame (parWf_encAction _) rfl rfl rfl
  | action _ ha => exact ha.blockInv hs
  | env e =>
    obtain ⟨fr, pendA, pendF, rxq, en, st, ia, fl, he⟩ := envStep_frame p e s
    rw [he]
    exact hs.of_frame hs.par_legal rfl rfl rfl
  | powerUp d => exact blockInv_powerUp d s

theorem blockInv_popTurn {s : State} (hs : BlockInv s) : BlockInv (popTurn s) := by
  unfold popTurn
  split <;> exact hs.of_frame hs.par_legal rfl rfl rfl

/-- Settles O58: the step is a turn on the state with the schedule moved on. -/
theorem everyStepKeepsTheInvariant : Obligations.EveryStepKeepsTheInvariant :=
  fun _ _ _ hs h => takeTurn_blockInv (blockInv_popTurn hs) h

/-! ### The link -/

/-- The wire carries a longer history after a shorter one (R24). -/
theorem wireBytes_append (eol : Line) (h k : List Obs) :
    wireBytes eol (h ++ k) = wireBytes eol h ++ wireBytes eol k := by
  induction h with
  | nil => rfl
  | cons o h ih => cases o <;> simp [wireBytes, ih]

/-- Settles O60. -/
theorem terminatorsFrameTheLines : Obligations.TerminatorsFrameTheLines := by
  refine ⟨?line, ?pulse, ?strip⟩
  case line => intro eol text h; simp [wireBytes_append, wireBytes, wireLine]
  case pulse => intro eol x h; simp [wireBytes_append, wireBytes]
  case strip => intro eolIn text; simp [stripTerminator]

end Sys2Proof.Machine

/-! Settled here: `PAR` refines the single-slot mailbox along every run (R59, R130, R133, R134), and what the two sampling
steps of a status payload read: the levels of two instants (R58, R277), which the block itself never writes (R57). -/

namespace Sys2Proof.Machine

/-! ### One turn of the mailbox -/

/-- But for the Dispatcher and a power-up, a turn overwrites the mailbox with what it stages, or keeps it (R59, R133,
R134). -/
theorem slotAfter_eq_or {t : Turn} (hd : t ≠ .dispatcher) (hpu : ∀ d, t ≠ .powerUp d) (s : State)
    (slot : Option PendingAction) : slotAfter t s slot = (stagedBy t s).or slot := by
  cases hst : stagedBy t s with
  | some a => simp [slotAfter, hst]
  | none =>
    cases t with
    | dispatcher => exact absurd rfl hd
    | powerUp d => exact absurd rfl (hpu d)
    | _ => simp [slotAfter, hst]

theorem stagedBy_lineDecoder_of_not_enabled {s : State} (h : s.rxq = [] ∨ s.imask = true) :
    stagedBy .lineDecoder s = none := by
  rcases h with hq | hm
  · simp [stagedBy, hq]
  · cases hq : s.rxq <;> simp [stagedBy, hq, hm]

theorem stagedBy_lineDecoder_of_line {s : State} {line : Line} {rest : List Line} (hq : s.rxq = line :: rest)
    (hm : s.imask = false) : stagedBy .lineDecoder s = (decodeCommand line).map .command := by
  simp [stagedBy, hq, hm]

theorem stagedBy_activeEdgeService (s : State) :
    stagedBy .activeEdgeService s =
      if s.pendA = true ∧ s.imask = false then some (.event .manualReset) else none := by
  simp [stagedBy]

theorem stagedBy_faultEdgeService (s : State) :
    stagedBy .faultEdgeService s =
      if s.pendF = true ∧ s.imask = false then some (.event (classifyFault s.fr)) else none := by
  simp [stagedBy, classifyFault]

/-! ### Each agent's step on `PAR` is its turn of the mailbox -/

section
variable {s s' : State} {slot : Option PendingAction} (hpar : s.par = slotWord slot)
include hpar

theorem lineDecoderTurn_par (h : lineDecoderTurn s = .next s') :
    s'.par = slotWord (slotAfter .lineDecoder s slot) := by
  rw [slotAfter_eq_or (t := .lineDecoder) nofun nofun]
  rcases lineDecoderTurn_cases s with ⟨hn, hl⟩ | ⟨line, rest, hq, hm, hc, hl⟩ | ⟨line, rest, c, hq, hm, hc, hl⟩ <;>
    cases hl.symm.trans h
  · rwa [stagedBy_lineDecoder_of_not_enabled hn]
  · rwa [stagedBy_lineDecoder_of_line hq hm, hc]
  · rw [stagedBy_lineDecoder_of_line hq hm, hc]
    rfl

theorem activeEdgeService_par : (activeEdgeService s).par = slotWord (slotAfter .activeEdgeService s slot) := by
  rw [slotAfter_eq_or (t := .activeEdgeService) nofun nofun, stagedBy_activeEdgeService]
  split_ifs with hc
  · rw [activeEdgeService_of_enabled hc.1 hc.2]
    rfl
  · rwa [activeEdgeService_of_not_enabled hc]

theorem faultEdgeService_par : (faultEdgeService s).par = slotWord (slotAfter .faultEdgeService s slot) := by
  rw [slotAfter_eq_or (t := .faultEdgeService) nofun nofun, stagedBy_faultEdgeService]
  split_ifs with hc
  · rw [faultEdgeService_of_enabled hc.1 hc.2]
    rfl
  · rwa [faultEdgeService_of_not_enabled hc]

/-- In `Idle` the Dispatcher leaves EMPTY, whatever the mailbox holds (R132, R201). -/
theorem dispatcherTurn_par_of_idle (hds : s.ds = .idle) (h : dispatcherTurn s = .next s') : s'.par = emptyPar := by
  cases slot with
  | none =>
    rw [dispatcherTurn_of_empty hds hpar] at h
    cases h
    exact hpar
  | some a =>
    rw [dispatcherTurn_of_idle hds hpar, exec_of_idle a hds, beginAction_of_action hpar] at h
    cases h
    rfl

theorem dispatcherTurn_par (h : dispatcherTurn s = .next s') :
    s'.par = slotWord (slotAfter .dispatcher s slot) := by
  change s'.par = slotWord (if s.ds = .idle then none else slot)
  split_ifs with hds
  · exact dispatcherTurn_par_of_idle hpar hds h
  · have hkeep := (actionStep_of_dispatcherTurn h).par_eq.resolve_right fun hd => hds hd.1
    exact hkeep.trans hpar

/-- The commuting square of the refinement: every turn acts on the word in `PAR` as on the mailbox. -/
theorem takeTurn_par {p : MaskedEdge} {t : Turn} (h : takeTurn p t s = .next s') :
    s'.par = slotWord (slotAfter t s slot) := by
  cases t with
  | lineDecoder => exact lineDecoderTurn_par hpar h
  | activeEdgeService => cases h; exact activeEdgeService_par hpar
  | faultEdgeService => cases h; exact faultEdgeService_par hpar
  | dispatcher => exact dispatcherTurn_par hpar h
  | env e =>
    cases h
    obtain ⟨fr, pendA, pendF, rxq, en, st, ia, fl, he⟩ := envStep_frame p e s
    rw [he]
    exact hpar
  | powerUp d => cases h; rfl

end

/-- The mailbox goes on from the state and the slot that the first turn leaves. -/
theorem slotAlong_cons_of_next {p : MaskedEdge} {t : Turn} {s s' : State} (ts : List Turn)
    (h : takeTurn p t s = .next s') (slot : Option PendingAction) :
    slotAlong p (t :: ts) s slot = slotAlong p ts s' (slotAfter t s slot) := by
  simp [slotAlong, h]

/-- Settles O15, by induction on the turns, with the state and the mailbox general. -/
theorem parIsSingleSlotMailbox : Obligations.ParIsSingleSlotMailbox := by
  intro p ts
  induction ts with
  | nil =>
    intro s s' slot hpar h
    cases h
    exact hpar
  | cons t ts ih =>
    intro s s' slot hpar h
    obtain ⟨u, hu, hr⟩ := runTurns_cons_eq_next h
    rw [slotAlong_cons_of_next ts hu]
    exact ih u s' (slotAfter t s slot) (takeTurn_par hpar hu) hr

/-! ### The two sampling steps of a status payload -/

theorem takeTurn_dispatcher_status_zero (p : MaskedEdge) {s : State} (hds : s.ds = .status 0) :
    takeTurn p .dispatcher s = .next { s with tmpEn := s.en, ds := .status 1 } := by
  change dispatcherTurn s = _
  rw [dispatcherTurn_of_action (a := .command .status) (by rw [hds]; rfl)]
  simp [exec, Instr.ofAction, execStatus, hds, goto_eq, holdEn_eq]

theorem takeTurn_dispatcher_status_one (p : MaskedEdge) {s : State} (hds : s.ds = .status 1) :
    takeTurn p .dispatcher s =
      .next { s with obs := s.obs ++ [.line (replyText (.status (packCsw s.tmpEn s.st)))], ds := .idle } := by
  change dispatcherTurn s = _
  rw [dispatcherTurn_of_action (a := .command .status) (by rw [hds]; rfl)]
  simp [exec, Instr.ofAction, execStatus, hds, reply_eq, freshCsw, readSt]

theorem takeTurn_dispatcher_reset_three (p : MaskedEdge) {s : State} (hds : s.ds = .reset 3) :
    takeTurn p .dispatcher s = .next { s with tmpEn := s.en, ds := .reset 4 } := by
  change dispatcherTurn s = _
  rw [dispatcherTurn_of_action (a := .command .reset) (by rw [hds]; rfl)]
  simp [exec, Instr.ofAction, execReset, hds, goto_eq, holdEn_eq]

theorem takeTurn_dispatcher_reset_four (p : MaskedEdge) {s : State} (hds : s.ds = .reset 4) :
    takeTurn p .dispatcher s =
      .next { s with obs := s.obs ++ [.line (replyText (.resetFail (packCsw s.tmpEn s.st)))], ds := .idle } := by
  change dispatcherTurn s = _
  rw [dispatcherTurn_of_action (a := .command .reset) (by rw [hds]; rfl)]
  simp [exec, Instr.ofAction, execReset, hds, reply_eq, freshCsw, readSt]

/-- Settles O51: the sampling step, the environment's two writes, and the replying step, for each of the two actions. -/
theorem statusPayloadMixesTwoInstants : Obligations.StatusPayloadMixesTwoInstants := by
  intro p e v s
  refine ⟨fun hds => ?status, fun hds => ?reset⟩
  case status =>
    rw [runTurns_cons_of_next _ (takeTurn_dispatcher_status_zero p hds), runTurns_cons_of_next _ rfl,
      runTurns_cons_of_next _ rfl, runTurns_cons_of_next _ (takeTurn_dispatcher_status_one p rfl)]
    rfl
  case reset =>
    rw [runTurns_cons_of_next _ (takeTurn_dispatcher_reset_three p hds), runTurns_cons_of_next _ rfl,
      runTurns_cons_of_next _ rfl, runTurns_cons_of_next _ (takeTurn_dispatcher_reset_four p rfl)]
    rfl

/-! ### Two Status actions with the block alone between them -/

/-- A Status action whose two steps are adjacent reports the levels it began with (R206). -/
theorem runTurns_status (p : MaskedEdge) {s : State} (hds : s.ds = .status 0) :
    runTurns p [.dispatcher, .dispatcher] s =
      .next { s with tmpEn := s.en, ds := .idle,
                     obs := s.obs ++ [.line (replyText (.status (packCsw s.en s.st)))] } := by
  rw [runTurns_cons_of_next _ (takeTurn_dispatcher_status_zero p hds),
    runTurns_cons_of_next _ (takeTurn_dispatcher_status_one p rfl)]
  rfl

/-- Power-up is no step of an agent of the block. -/
theorem isPowerUp_of_mem_blockTurns : ∀ t ∈ blockTurns, isPowerUp t = false := by decide

/-- No agent of the block writes the levels that a Status action samples (R38, R57). -/
theorem takeTurn_levels_of_mem_blockTurns {p : MaskedEdge} {t : Turn} {s s' : State} (ht : t ∈ blockTurns)
    (h : takeTurn p t s = .next s') : s'.en = s.en ∧ s'.st = s.st := by
  obtain ⟨-, -, -, -, -, -, hen, hst, -⟩ :=
    onlyTheOwnersWrite p t s s' (isPowerUp_of_mem_blockTurns t ht) h
  constructor <;> by_contra hne
  · obtain ⟨v, rfl⟩ := hen hne
    simp [blockTurns] at ht
  · obtain ⟨v, rfl⟩ := hst hne
    simp [blockTurns] at ht

/-- The levels stay through a run of the block alone. -/
theorem runTurns_levels_of_blockTurns {p : MaskedEdge} {ts : List Turn} {s s' : State}
    (hts : ∀ t ∈ ts, t ∈ blockTurns) (h : runTurns p ts s = .next s') : s'.en = s.en ∧ s'.st = s.st :=
  runTurns_induction (P := fun u => u.en = s.en ∧ u.st = s.st)
    (fun t ht _ _ hs hu =>
      have hlev := takeTurn_levels_of_mem_blockTurns (hts t ht) hu
      ⟨hlev.1.trans hs.1, hlev.2.trans hs.2⟩)
    ⟨rfl, rfl⟩ h

/-- Settles O46: both actions report the same levels, those that the first began with. -/
theorem statusIsIdempotent : Obligations.StatusIsIdempotent := by
  intro p between s u s1 u1 hblock hds hfirst hbetween hds1 hsecond
  cases (runTurns_status p hds).symm.trans hfirst
  cases (runTurns_status p hds1).symm.trans hsecond
  obtain ⟨hen, hst⟩ := runTurns_levels_of_blockTurns hblock hbetween
  exact ⟨replyText (.status (packCsw s.en s.st)), rfl, by rw [hen, hst]⟩

end Sys2Proof.Machine

/-! Settled here: no run from a state that meets the invariant reaches a fault (R76, R243), and the encodings: the reply
lines (R77 to R79), the agreement of decoding with encoding (R71, R75, R85), and the reserved words (R76). -/

namespace Sys2Proof.Machine

/-! ### The words that are not reserved -/

/-- The field checks of R72 to R74 let through nothing but EMPTY and the words that `dec` knows. -/
theorem eq_emptyPar_or_decAction_isSome {w : Byte} (h : parWf w = true) :
    w = emptyPar ∨ (decAction w).isSome = true := by
  revert w; decide

/-- The well-formed words are EMPTY and the eight actions (R76). -/
theorem parWf_iff {w : Byte} : parWf w = true ↔ w = emptyPar ∨ ∃ a, w = encAction a := by
  constructor
  · intro h
    rcases eq_emptyPar_or_decAction_isSome h with h0 | hsome
    · exact .inl h0
    · obtain ⟨a, ha⟩ := Option.isSome_iff_exists.1 hsome
      exact .inr ⟨a, eq_encAction_of_decAction ha⟩
  · rintro (rfl | ⟨a, rfl⟩)
    · decide
    · exact parWf_encAction a

theorem parWf_eq_false_iff {w : Byte} : parWf w = false ↔ w ≠ emptyPar ∧ ∀ a, w ≠ encAction a := by
  rw [← Bool.not_eq_true, parWf_iff, not_or, not_exists]

/-! ### No turn faults -/

/-- Only the drain step of an action can fault: its steps in `Proc(act, k)`, and the wait in another action's, go on. -/
theorem exec_ofAction_of_busy (a : PendingAction) {s : State} (hbusy : s.ds ≠ .idle) :
    ∃ s', exec (Instr.ofAction a) s = .next s' := by
  cases a with
  | command c =>
    cases c <;>
      (simp only [exec, Instr.ofAction, execReset, execStatus, execFaultRegister, execDisable, execModel]
       split
       · next hidle => exact absurd hidle hbusy
       all_goals exact ⟨_, rfl⟩)
  | event e =>
    cases e <;>
      (simp only [exec, Instr.ofAction, execManualReset, execManualDisable, execFault]
       split
       · next hidle => exact absurd hidle hbusy
       all_goals exact ⟨_, rfl⟩)

/-- With no reserved word in `PAR` the Dispatcher goes on (R132, R243). -/
theorem dispatcherTurn_goes_on {s : State} (hpar : parWf s.par = true) : ∃ s', dispatcherTurn s = .next s' := by
  cases ha : actionOf s.ds with
  | some a =>
    rw [dispatcherTurn_of_action ha]
    exact exec_ofAction_of_busy a fun hidle => by simp [actionOf_eq_none.2 hidle] at ha
  | none =>
    have hidle := actionOf_eq_none.1 ha
    rcases parWf_iff.1 hpar with hempty | ⟨a, hact⟩
    · exact ⟨s, dispatcherTurn_of_empty hidle hempty⟩
    · exact ⟨_, by rw [dispatcherTurn_of_idle hidle hact, exec_of_idle a hidle, beginAction_of_action hact]⟩

theorem lineDecoderTurn_goes_on (s : State) : ∃ s', lineDecoderTurn s = .next s' := by
  rcases lineDecoderTurn_cases s with ⟨-, hl⟩ | ⟨_, _, -, -, -, hl⟩ | ⟨_, _, _, -, -, -, hl⟩ <;> exact ⟨_, hl⟩

/-- With no reserved word in `PAR` every turn goes on. -/
theorem takeTurn_goes_on (p : MaskedEdge) (t : Turn) {s : State} (hpar : parWf s.par = true) :
    ∃ s', takeTurn p t s = .next s' := by
  cases t with
  | lineDecoder => exact lineDecoderTurn_goes_on s
  | dispatcher => exact dispatcherTurn_goes_on hpar
  | activeEdgeService | faultEdgeService | env | powerUp => exact ⟨_, rfl⟩

/-- Settles O59, by induction on the turns: a turn goes on from a state that meets the invariant, and keeps it. -/
theorem noRunReachesAFault : Obligations.NoRunReachesAFault := by
  intro p ts
  induction ts with
  | nil => exact fun s hs => ⟨s, rfl, hs⟩
  | cons t ts ih =>
    intro s hs
    obtain ⟨u, hu⟩ := takeTurn_goes_on p t hs.par_legal
    obtain ⟨s', hrun, hs'⟩ := ih u (takeTurn_blockInv hs hu)
    exact ⟨s', by rw [runTurns_cons_of_next _ hu, hrun], hs'⟩

/-! ### Payloads -/

@[simp] theorem ser_length (n : Nat) (v : BitVec n) : (ser n v).length = n := by simp [ser]

@[simp] theorem ser8_length (v : Byte) : (ser8 v).length = 8 := ser_length 8 v

@[simp] theorem ser16_length (w : Word16) : (ser16 w).length = 16 := ser_length 16 w

theorem asciiBit_injective {b c : Bool} (h : asciiBit b = asciiBit c) : b = c := by
  revert b c; decide

/-- Two values with one payload are one value: bit `i` is rendered by byte `n - 1 - i` (R53, R79). -/
theorem ser_injective {n : Nat} {v w : BitVec n} (h : ser n v = ser n w) : v = w := by
  have hbyte := List.map_inj_left.1 h
  refine BitVec.eq_of_getLsbD_eq fun i hi => ?_
  have hbit := asciiBit_injective (hbyte (n - 1 - i) (List.mem_range.2 (by omega)))
  rwa [show n - 1 - (n - 1 - i) = i by omega] at hbit

/-! ### Reply lines -/

/-- A reply line is the token, then a space and the payload where there is one (R77). -/
theorem replyText_eq (r : Reply) : replyText r = replyToken r ++ (replyPayload r).elim [] (0x20 :: ·) := by
  unfold replyText
  cases replyPayload r <;> simp

/-- No token holds the separator (R78). -/
theorem space_not_mem_replyToken (r : Reply) : 0x20 ∉ replyToken r := by
  cases r <;> simp [replyToken, Config.modelId]

/-- The token is what stands before the first space. -/
theorem takeWhile_replyText (r : Reply) : (replyText r).takeWhile (· != 0x20) = replyToken r := by
  have htoken : ∀ c ∈ replyToken r, (c != 0x20) = true := fun c hc =>
    bne_iff_ne.2 fun h => space_not_mem_replyToken r (h ▸ hc)
  rw [replyText_eq, List.takeWhile_append_of_pos htoken]
  cases replyPayload r <;> simp

theorem replyToken_eq_of_replyText {r r' : Reply} (h : replyText r = replyText r') : replyToken r = replyToken r' := by
  rw [← takeWhile_replyText r, ← takeWhile_replyText r', h]

theorem replyPayload_eq_of_replyText {r r' : Reply} (h : replyText r = replyText r') :
    replyPayload r = replyPayload r' := by
  have htoken := replyToken_eq_of_replyText h
  rw [replyText_eq, replyText_eq, htoken, List.append_cancel_left_eq] at h
  generalize replyPayload r = p, replyPayload r' = p' at h
  cases p <;> cases p' <;> simp at h ⊢
  exact h

/-- The eleven tokens differ, and a payload has one value, so token and payload determine the reply (R78, R79). -/
theorem reply_eq_of_token_of_payload {r r' : Reply} (htoken : replyToken r = replyToken r')
    (hpayload : replyPayload r = replyPayload r') : r = r' := by
  cases r <;> cases r'
  case resetFail.resetFail | status.status | faultReg.faultReg | fault.fault =>
    rw [ser_injective (Option.some.inj hpayload)]
  all_goals simp [replyToken, Config.modelId] at htoken ⊢

/-- Settles O8: the first space cuts a line into token and payload. -/
theorem replyTextsDetermineTheReply : Obligations.ReplyTextsDetermineTheReply := fun _ _ h =>
  reply_eq_of_token_of_payload (replyToken_eq_of_replyText h) (replyPayload_eq_of_replyText h)

/-- Settles O7: the bytes are the token's and the payload's, and a payload has a byte per bit. -/
theorem replyTextsMatchTable : Obligations.ReplyTextsMatchTable := by
  refine ⟨rfl, rfl, fun w => ⟨rfl, ?resetFail⟩, fun w => ⟨rfl, ?status⟩, fun v => ⟨rfl, ?faultReg⟩, rfl, rfl, rfl, rfl,
    rfl, fun v => ⟨rfl, ?fault⟩⟩
  all_goals simp [replyText_eq, replyToken, replyPayload]

/-! ### Decoding and encoding -/

/-- Each row's word decodes to its row. -/
theorem decode_encode : ∀ i : Instr, decode (encode i) = .instr i
  | .reset => Laws.EncodedWord.reset.2
  | .status => Laws.EncodedWord.status.2
  | .faultRegister => Laws.EncodedWord.faultRegister.2
  | .disable => Laws.EncodedWord.disable.2
  | .model => Laws.EncodedWord.model.2
  | .manualReset => Laws.EncodedWord.manualReset.2
  | .manualDisable => Laws.EncodedWord.manualDisable.2
  | .fault => Laws.EncodedWord.fault.2
  | .empty => Laws.EncodedWord.empty.2
  | .lineReset => Laws.EncodedWord.lineReset.2
  | .lineStatus => Laws.EncodedWord.lineStatus.2
  | .lineFaultReg => Laws.EncodedWord.lineFaultReg.2
  | .lineDisable => Laws.EncodedWord.lineDisable.2
  | .lineRelialok => Laws.EncodedWord.lineRelialok.2

theorem encode_ofAction (a : PendingAction) : encode (Instr.ofAction a) = .par (encAction a) := by
  cases a with
  | command c => cases c <;> rfl
  | event e => cases e <;> rfl

theorem encode_ofLine (c : Command) : encode (Instr.ofLine c) = .line (lineLiteral c) := by
  cases c <;> rfl

/-- Everything `decodePar` can answer (R75, R76, R85). -/
theorem decodePar_cases (w : Byte) :
    (w = emptyPar ∧ decodePar w = .instr .empty) ∨
    (∃ a, w = encAction a ∧ decodePar w = .instr (Instr.ofAction a)) ∨
    (parWf w = false ∧ decodePar w = .rejected (.reservedPar w)) := by
  by_cases h0 : w = emptyPar
  · exact .inl ⟨h0, if_pos h0⟩
  · cases hdec : decAction w with
    | some a =>
      obtain rfl := eq_encAction_of_decAction hdec
      exact .inr (.inl ⟨a, rfl, decodePar_encAction a⟩)
    | none =>
      have hact : ∀ a, w ≠ encAction a := fun a ha => by simp [ha] at hdec
      exact .inr (.inr ⟨parWf_eq_false_iff.2 ⟨h0, hact⟩, by simp [decodePar, h0, hdec]⟩)

theorem eq_encode_of_decodePar {w : Byte} {i : Instr} (h : decodePar w = .instr i) : .par w = encode i := by
  rcases decodePar_cases w with ⟨rfl, hd⟩ | ⟨a, rfl, hd⟩ | ⟨-, hd⟩ <;> cases hd.symm.trans h
  · rfl
  · exact (encode_ofAction a).symm

theorem eq_encode_of_decodeLine {line : Line} {i : Instr} (h : decodeLine line = .instr i) :
    .line line = encode i := by
  unfold decodeLine at h
  split at h
  · next c hc =>
      cases h
      rw [encode_ofLine, eq_lineLiteral_of_decodeCommand hc]
  · cases h

/-- Settles O10, format by format. -/
theorem decodeAndEncodeAgree : Obligations.DecodeAndEncodeAgree := by
  intro w i
  constructor
  · intro h
    cases w with
    | par w => exact eq_encode_of_decodePar h
    | line l => exact eq_encode_of_decodeLine h
  · rintro rfl
    exact decode_encode i

/-- Settles O9: the written-out words are the encoder's. -/
theorem tableWordsDecodeToTheirRows : Obligations.TableWordsDecodeToTheirRows :=
  ⟨decode_encode .reset, decode_encode .status, decode_encode .faultRegister, decode_encode .disable,
    decode_encode .model, decode_encode .manualReset, decode_encode .manualDisable, decode_encode .fault,
    decode_encode .empty, decode_encode .lineReset, decode_encode .lineStatus, decode_encode .lineFaultReg,
    decode_encode .lineDisable, decode_encode .lineRelialok⟩

/-! ### Reserved words -/

/-- The decoder rejects exactly the reserved words (R76). -/
theorem decodePar_eq_rejected_iff {w : Byte} :
    decodePar w = .rejected (.reservedPar w) ↔ parWf w = false := by
  rcases decodePar_cases w with ⟨rfl, hd⟩ | ⟨a, rfl, hd⟩ | ⟨hwf, hd⟩
  · simp [hd, parWf_iff.2 (.inl rfl)]
  · simp [hd, parWf_encAction]
  · simp [hd, hwf]

/-- An action's word has `V = 1` (R72 to R74). -/
theorem parV_encAction (a : PendingAction) : parV (encAction a) = true := by
  cases a with
  | command c => cases c <;> decide
  | event e => cases e <;> decide

/-- The reserved words by the value of `V` (R76). -/
theorem parWf_eq_false_iff_by_parV {w : Byte} :
    parWf w = false ↔ (parV w = false ∧ w ≠ emptyPar) ∨ (parV w = true ∧ ∀ a, w ≠ encAction a) := by
  rw [parWf_eq_false_iff]
  cases hv : parV w with
  | false =>
    have hact : ∀ a, w ≠ encAction a := fun a ha => by simp [ha, parV_encAction] at hv
    simp [hact]
  | true =>
    have hempty : w ≠ emptyPar := fun h0 => by
      rw [h0] at hv
      exact absurd hv (by decide)
    simp [hempty]

/-- EMPTY and the eight action words as numbers (R73 to R75). -/
def wordNumbers : List Nat := [0x00, 0x80, 0x81, 0x82, 0x83, 0x84, 0xC0, 0xC1, 0xC2]

theorem toNat_encAction_mem_wordNumbers (a : PendingAction) : (encAction a).toNat ∈ wordNumbers := by
  cases a with
  | command c => cases c <;> decide
  | event e => cases e <;> decide

theorem parWf_ofNat_of_mem_wordNumbers : ∀ n ∈ wordNumbers, parWf (BitVec.ofNat 8 n) = true := by decide

theorem parWf_ofNat_iff_mem_wordNumbers {n : Nat} (hn : n < 256) :
    parWf (BitVec.ofNat 8 n) = true ↔ n ∈ wordNumbers := by
  refine ⟨fun h => ?_, parWf_ofNat_of_mem_wordNumbers n⟩
  have hnum : (BitVec.ofNat 8 n).toNat = n := (BitVec.toNat_ofNat n 8).trans (Nat.mod_eq_of_lt hn)
  rw [← hnum]
  rcases parWf_iff.1 h with hw | ⟨a, hw⟩ <;> rw [hw]
  · decide
  · exact toNat_encAction_mem_wordNumbers a

/-- The words that are not reserved are those nine. -/
theorem filter_parWf_perm_wordNumbers :
    ((List.range 256).filter fun n => parWf (BitVec.ofNat 8 n)).Perm wordNumbers := by
  refine (List.perm_ext_iff_of_nodup (List.nodup_range.filter _) (by decide)).2 fun n => ?_
  have hlt : n ∈ wordNumbers → n < 256 := (by decide : ∀ m ∈ wordNumbers, m < 256) n
  rw [List.mem_filter, List.mem_range]
  exact ⟨fun ⟨hn, h⟩ => (parWf_ofNat_iff_mem_wordNumbers hn).1 h,
    fun h => ⟨hlt h, (parWf_ofNat_iff_mem_wordNumbers (hlt h)).2 h⟩⟩

/-- 256 values less nine (R76). -/
theorem length_filter_reserved :
    ((List.range 256).filter fun n => !parWf (BitVec.ofNat 8 n)).length = 247 := by
  have hsplit := List.length_eq_length_filter_add (l := List.range 256) fun n => parWf (BitVec.ofNat 8 n)
  have hnine : wordNumbers.length = 9 := rfl
  rw [List.length_range, filter_parWf_perm_wordNumbers.length_eq, hnine] at hsplit
  omega

/-- Settles O12: the count over the 256 values, and the two characterisations. -/
theorem reservedWordsAre247 : Obligations.ReservedWordsAre247 :=
  ⟨length_filter_reserved, fun _ => decodePar_eq_rejected_iff.symm, fun _ => parWf_eq_false_iff_by_parV⟩

end Sys2Proof.Machine

/-! Settled here: the Bit-Packing Codec. Where each bit of a CurrentStatusWord goes and comes back from (R101 to R103,
R108), and that `deser_n` inverts `ser_n` exactly on the payloads (R104 to R107). -/

namespace Sys2Proof.Machine

/-! ### The bits of a CurrentStatusWord -/

/-- R101, R103: the odd bits carry the enable set, whatever the state set is. -/
theorem getLsbD_packCsw_odd (e s : Byte) {i : Nat} (hi : i < 8) :
    (packCsw e s).getLsbD (2 * i + 1) = e.getLsbD i := by
  have hlt : 2 * i + 1 < 16 := by omega
  have hodd : (2 * i + 1) % 2 = 1 := by omega
  have hhalf : (2 * i + 1) / 2 = i := by omega
  simp only [packCsw, BitVec.getLsbD_ofFnLE, hlt, hodd, hhalf, dite_true, if_true]

/-- R101, R103: the even bits carry the state set, whatever the enable set is. -/
theorem getLsbD_packCsw_even (e s : Byte) {i : Nat} (hi : i < 8) :
    (packCsw e s).getLsbD (2 * i) = s.getLsbD i := by
  have hlt : 2 * i < 16 := by omega
  have heven : ¬ (2 * i) % 2 = 1 := by omega
  have hhalf : 2 * i / 2 = i := by omega
  simp only [packCsw, BitVec.getLsbD_ofFnLE, hlt, heven, hhalf, dite_true, if_false]

/-- R108: bit `i` of the unpacked enable set is an odd bit of the word. -/
theorem getLsbD_unpackEnables (w : Word16) {i : Nat} (hi : i < 8) :
    (unpackEnables w).getLsbD i = w.getLsbD (2 * i + 1) := by
  simp [unpackEnables, hi]

/-- R108: bit `i` of the unpacked state set is an even bit of the word. -/
theorem getLsbD_unpackStates (w : Word16) {i : Nat} (hi : i < 8) :
    (unpackStates w).getLsbD i = w.getLsbD (2 * i) := by
  simp [unpackStates, hi]

/-- Two words are equal if the pairs of all eight channels are. -/
theorem word16_ext_of_pairs {w w' : Word16}
    (hodd : ∀ i, i < 8 → w.getLsbD (2 * i + 1) = w'.getLsbD (2 * i + 1))
    (heven : ∀ i, i < 8 → w.getLsbD (2 * i) = w'.getLsbD (2 * i)) : w = w' := by
  refine BitVec.eq_of_getLsbD_eq fun j hj => ?_
  rcases Nat.even_or_odd' j with ⟨i, rfl | rfl⟩
  · exact heven i (by omega)
  · exact hodd i (by omega)

theorem unpackEnables_packCsw (e s : Byte) : unpackEnables (packCsw e s) = e :=
  BitVec.eq_of_getLsbD_eq fun _ hi => (getLsbD_unpackEnables _ hi).trans (getLsbD_packCsw_odd e s hi)

theorem unpackStates_packCsw (e s : Byte) : unpackStates (packCsw e s) = s :=
  BitVec.eq_of_getLsbD_eq fun _ hi => (getLsbD_unpackStates _ hi).trans (getLsbD_packCsw_even e s hi)

theorem packCsw_unpack (w : Word16) : packCsw (unpackEnables w) (unpackStates w) = w :=
  word16_ext_of_pairs
    (fun _ hi => (getLsbD_packCsw_odd _ _ hi).trans (getLsbD_unpackEnables w hi))
    (fun _ hi => (getLsbD_packCsw_even _ _ hi).trans (getLsbD_unpackStates w hi))

/-! ### The field of one channel -/

/-- R102 for the channel with index `i`, which has number `i + 1`. -/
theorem getLsbD_channelPair_succ (w : Word16) (i : Nat) {j : Nat} (hj : j < 2) :
    (channelPair w (i + 1)).getLsbD j = w.getLsbD (2 * i + j) := by
  have hstart : 2 * (i + 1) - 2 = 2 * i := by omega
  simp [channelPair, hj, hstart]

/-- The law of R102: on a packed word the field is `{enabled, ok}`. -/
theorem channelPair_succ_packCsw (e s : Byte) {i : Nat} (hi : i < 8) :
    channelPair (packCsw e s) (i + 1) = BitVec.ofBool (e.getLsbD i) ++ BitVec.ofBool (s.getLsbD i) := by
  refine BitVec.eq_of_getLsbD_eq fun j hj => ?_
  rw [getLsbD_channelPair_succ _ i hj]
  obtain rfl | rfl : j = 0 ∨ j = 1 := by omega
  · rw [Nat.add_zero, getLsbD_packCsw_even e s hi, BitVec.getLsbD_append]
    simp
  · rw [getLsbD_packCsw_odd e s hi, BitVec.getLsbD_append]
    simp

/-- Settles O1: one bit of each set per channel. -/
theorem packCswPlacesEveryBit : Obligations.PackCswPlacesEveryBit := fun e s _ hi =>
  ⟨getLsbD_packCsw_odd e s hi, getLsbD_packCsw_even e s hi⟩

/-- Settles O2, for the channel of index `n - 1`. -/
theorem pairReadsChannelBack : Obligations.PairReadsChannelBack := by
  intro n hn hn8
  obtain ⟨i, rfl⟩ := Nat.exists_eq_add_of_le' hn
  exact ⟨fun w => ⟨getLsbD_channelPair_succ w i (by decide), getLsbD_channelPair_succ w i (by decide)⟩,
    fun e s => channelPair_succ_packCsw e s hn8⟩

/-- Settles O3: packing and unpacking undo each other bit by bit. -/
theorem packCswIsBijective : Obligations.PackCswIsBijective :=
  ⟨fun e s => ⟨unpackEnables_packCsw e s, unpackStates_packCsw e s⟩, packCsw_unpack,
    fun w _ hi => ⟨getLsbD_unpackEnables w hi, getLsbD_unpackStates w hi⟩⟩

/-! ### Serialising -/

/-- R104, R105: byte `k` renders bit `n - 1 - k`. -/
theorem getElem_ser {n : Nat} (v : BitVec n) {k : Nat} (hk : k < (ser n v).length) :
    (ser n v)[k] = asciiBit (v.getLsbD (n - 1 - k)) := by
  simp [ser]

theorem getElem?_ser {n : Nat} (v : BitVec n) {k : Nat} (hk : k < n) :
    (ser n v)[k]? = some (asciiBit (v.getLsbD (n - 1 - k))) := by
  rw [List.getElem?_eq_getElem (by rwa [ser_length]), getElem_ser]

/-- The first byte is the most significant bit, and the payload of the others follows. -/
theorem ser_cons (b : Bool) {n : Nat} (v : BitVec n) : ser (n + 1) (BitVec.cons b v) = asciiBit b :: ser n v := by
  refine List.ext_getElem (by simp) fun k hk _ => ?_
  rw [ser_length] at hk
  rw [getElem_ser, BitVec.getLsbD_cons]
  cases k with
  | zero => simp
  | succ k =>
    have hne : n + 1 - 1 - (k + 1) ≠ n := by omega
    have hbit : n + 1 - 1 - (k + 1) = n - 1 - k := by omega
    rw [if_neg hne, hbit, List.getElem_cons_succ, getElem_ser]

/-- A wider value is rendered part by part, the high part first (R105). -/
theorem ser_append {m n : Nat} (hi : BitVec m) (lo : BitVec n) : ser (m + n) (hi ++ lo) = ser m hi ++ ser n lo := by
  refine List.ext_getElem (by simp) fun k hk _ => ?_
  rw [ser_length] at hk
  rw [getElem_ser, BitVec.getLsbD_append]
  by_cases hkm : k < m
  · have hhigh : ¬ m + n - 1 - k < n := by omega
    have hbit : m + n - 1 - k - n = m - 1 - k := by omega
    rw [if_neg hhigh, hbit, List.getElem_append_left (by rwa [ser_length]), getElem_ser]
  · have hlow : m + n - 1 - k < n := by omega
    have hbit : m + n - 1 - k = n - 1 - (k - m) := by omega
    rw [if_pos hlow, hbit, List.getElem_append_right (by rw [ser_length]; omega), getElem_ser, ser_length]

theorem ser16_eq_append (w : Word16) : ser16 w = ser8 (w.extractLsb' 8 8) ++ ser8 (w.extractLsb' 0 8) := by
  have hsplit : w.extractLsb' 8 8 ++ w.extractLsb' 0 8 = w :=
    (BitVec.extractLsb'_append_extractLsb'_eq_extractLsb' rfl).trans BitVec.extractLsb'_eq_self
  calc ser16 w = ser (8 + 8) (w.extractLsb' 8 8 ++ w.extractLsb' 0 8) := congrArg ser16 hsplit.symm
    _ = _ := ser_append _ _

/-- Settles O4, for both widths from the width-generic rules. -/
theorem payloadsAreMostSignificantBitFirst : Obligations.PayloadsAreMostSignificantBitFirst :=
  ⟨fun v => ⟨ser8_length v, fun _ hk => getElem?_ser v hk⟩,
    fun w => ⟨ser16_length w, fun _ hk => getElem?_ser w hk, ser16_eq_append w⟩⟩

/-! ### Decoding a payload -/

/-- The digits of R106 are the bytes that render a bit. -/
theorem exists_asciiBit_iff {c : Byte} : (∃ b, asciiBit b = c) ↔ c = 0x30 ∨ c = 0x31 := by
  simp [asciiBit, eq_comm]

theorem asciiBit_eq_one_iff {b : Bool} : asciiBit b = 0x31 ↔ b = true := by
  revert b; decide

@[simp] theorem bitOfAscii_asciiBit (b : Bool) : bitOfAscii (asciiBit b) = some b := by
  revert b; decide

theorem asciiBit_of_bitOfAscii {c : Byte} {b : Bool} (h : bitOfAscii c = some b) : asciiBit b = c := by
  unfold bitOfAscii at h
  split_ifs at h with hone hzero <;> cases h
  · exact hone.symm
  · exact hzero.symm

@[simp] theorem digitsValue_asciiBit_cons (acc : Nat) (b : Bool) (s : Line) :
    digitsValue acc (asciiBit b :: s) = digitsValue (2 * acc + b.toNat) s := by
  simp [digitsValue]

/-- The digits of a payload are those of its value, after the digits already read. -/
theorem digitsValue_ser {n : Nat} (v : BitVec n) (acc : Nat) :
    digitsValue acc (ser n v) = some (acc * 2 ^ n + v.toNat) := by
  induction n generalizing acc with
  | zero => simp [ser, digitsValue, BitVec.of_length_zero]
  | succ n ih =>
    rw [← BitVec.cons_msb_setWidth v, ser_cons, digitsValue_asciiBit_cons, ih, BitVec.toNat_cons', Nat.shiftLeft_eq]
    congr 1
    ring

/-- Only digits have a number. -/
theorem forall_digit_of_digitsValue {s : Line} {acc m : Nat} (h : digitsValue acc s = some m) :
    ∀ c ∈ s, ∃ b, asciiBit b = c := by
  induction s generalizing acc with
  | nil => simp
  | cons c s ih =>
    unfold digitsValue at h
    split at h
    · next b hb => exact List.forall_mem_cons.2 ⟨⟨b, asciiBit_of_bitOfAscii hb⟩, ih h⟩
    · cases h

/-- Every string of digits is the payload of some value. -/
theorem exists_ser_of_forall_digit {s : Line} (h : ∀ c ∈ s, ∃ b, asciiBit b = c) :
    ∃ v : BitVec s.length, ser s.length v = s := by
  induction s with
  | nil => exact ⟨0, rfl⟩
  | cons c s ih =>
    obtain ⟨⟨b, rfl⟩, hs⟩ := List.forall_mem_cons.1 h
    obtain ⟨v, hv⟩ := ih hs
    exact ⟨BitVec.cons b v, (ser_cons b v).trans (congrArg _ hv)⟩

/-- R107: decoding a serialised value gives it back. -/
@[simp] theorem deser_ser {n : Nat} (v : BitVec n) : deser n (ser n v) = some v := by
  simp [deser, digitsValue_ser]

/-- A value is decoded only from as many digits as it has bits. -/
theorem digits_of_deser {n : Nat} {s : Line} {v : BitVec n} (h : deser n s = some v) :
    s.length = n ∧ ∀ c ∈ s, ∃ b, asciiBit b = c := by
  unfold deser at h
  split at h
  · next hlen =>
    obtain ⟨m, hm, -⟩ := Option.map_eq_some_iff.1 h
    exact ⟨hlen, forall_digit_of_digitsValue hm⟩
  · cases h

/-- R106, R107: `deser_n` is the inverse of `ser_n`, and has no other value. -/
theorem deser_eq_some_iff {n : Nat} {s : Line} {v : BitVec n} : deser n s = some v ↔ ser n v = s := by
  constructor
  · intro h
    obtain ⟨rfl, hdigits⟩ := digits_of_deser h
    obtain ⟨u, hu⟩ := exists_ser_of_forall_digit hdigits
    have huv : some u = some v := by rw [← deser_ser u, hu, h]
    rwa [← Option.some.inj huv]
  · rintro rfl
    exact deser_ser v

/-- The domain of `deser_n` (R106). -/
theorem deser_isSome_iff {n : Nat} {s : Line} :
    (deser n s).isSome = true ↔ s.length = n ∧ ∀ c ∈ s, c = 0x30 ∨ c = 0x31 := by
  simp only [← exists_asciiBit_iff, Option.isSome_iff_exists]
  constructor
  · rintro ⟨v, hv⟩
    exact digits_of_deser hv
  · rintro ⟨rfl, hdigits⟩
    obtain ⟨v, hv⟩ := exists_ser_of_forall_digit hdigits
    exact ⟨v, deser_eq_some_iff.2 hv⟩

/-- The value that `deser_n` decodes, bit by bit (R106). -/
theorem getElem?_eq_one_iff_of_deser {n : Nat} {s : Line} {v : BitVec n} (h : deser n s = some v) {k : Nat}
    (hk : k < n) : s[k]? = some 0x31 ↔ v.getLsbD (n - 1 - k) = true := by
  rw [← deser_eq_some_iff.1 h, getElem?_ser v hk, Option.some_inj, asciiBit_eq_one_iff]

/-- Settles O5, for both widths from the domain and the bits of `deser_n`. -/
theorem deserDefinedExactlyOnPayloads : Obligations.DeserDefinedExactlyOnPayloads :=
  ⟨fun _ => deser_isSome_iff, fun _ => deser_isSome_iff, fun _ _ h _ hk => getElem?_eq_one_iff_of_deser h hk,
    fun _ _ h _ hk => getElem?_eq_one_iff_of_deser h hk⟩

/-- Settles O6, for both widths from the inverse `deser_n`. -/
theorem payloadRoundTrip : Obligations.PayloadRoundTrip :=
  ⟨deser_ser, deser_ser, fun _ _ => deser_eq_some_iff.1, fun _ _ => deser_eq_some_iff.1⟩

end Sys2Proof.Machine

/-! Settled here: the operations on `PAR` (R131, R132), the two orders of pending services (R134, R136), EMPTY, and the
masked window, in which no producer has a step and nothing waiting is lost (R137, R280). -/

namespace Sys2Proof.Machine

/-! ### `stage`, `drain` and EMPTY -/

/-- Settles O13: `stage` is the overwrite, and `tryStage` answers true beside it. -/
theorem stageOverwrites : Obligations.StageOverwrites := fun a s =>
  ⟨stage_eq a s, congrArg (Prod.mk true) (stage_eq a s)⟩

/-- A reserved word is neither EMPTY nor the code of an action, which leaves one answer to the drain (R76, R132). -/
theorem drain_of_reserved {s : State} (h : parWf s.par = false) :
    s.par ≠ emptyPar ∧ decAction s.par = none ∧ drain s = .reserved := by
  obtain ⟨hempty, haction⟩ := parWf_eq_false_iff.1 h
  rcases drain_cases s with ⟨hp, -⟩ | ⟨a, hp, -⟩ | hreserved
  · exact absurd hp hempty
  · exact absurd hp (haction a)
  · exact hreserved

/-- Settles O14, by the three kinds of words that `PAR` can hold. -/
theorem drainReadsAndClears : Obligations.DrainReadsAndClears := by
  intro s
  refine ⟨drain_of_empty, fun a => drain_of_action, fun hreserved => ?_⟩
  obtain ⟨hempty, hnone, hdrain⟩ := drain_of_reserved hreserved
  exact ⟨hdrain, fun hidle p => dispatcherTurn_of_reserved hidle hempty hnone⟩

/-- Settles O29: the arm of EMPTY answers the state it was given. -/
theorem emptyHasNoEffect : Obligations.EmptyHasNoEffect := fun _ => rfl

/-! ### Two pending services -/

theorem takeTurn_activeEdgeService_of_enabled (p : MaskedEdge) {s : State} (ha : s.pendA = true)
    (hm : s.imask = false) :
    takeTurn p .activeEdgeService s =
      .next { s with pendA := false, par := encAction (.event .manualReset) } :=
  congrArg _ (activeEdgeService_of_enabled ha hm)

theorem takeTurn_faultEdgeService_of_enabled (p : MaskedEdge) {s : State} (hf : s.pendF = true)
    (hm : s.imask = false) :
    takeTurn p .faultEdgeService s =
      .next { s with pendF := false, par := if s.fr = 0x00 then 0xC1 else 0xC2 } := by
  rw [← encAction_classifyFault]
  exact congrArg _ (faultEdgeService_of_enabled hf hm)

/-- Settles O16: each service leaves the other's pending bit, `FR` and the mask, so the second one is enabled too and
overwrites the word of the first. -/
theorem bothServiceOrdersAdmitted : Obligations.BothServiceOrdersAdmitted := by
  intro p s ha hf hm
  constructor
  · rw [runTurns_cons_of_next _ (takeTurn_activeEdgeService_of_enabled p ha hm)]
    exact runTurns_cons_of_next [] (takeTurn_faultEdgeService_of_enabled p hf hm)
  · rw [runTurns_cons_of_next _ (takeTurn_faultEdgeService_of_enabled p hf hm)]
    exact runTurns_cons_of_next [] (takeTurn_activeEdgeService_of_enabled p ha hm)

/-! ### The masked window -/

theorem decodeStep_of_masked (c : Command) {s : State} (hm : s.imask = true) : decodeStep c s = .next s := by
  rcases decodeStep_cases c s with ⟨_, -, hunmasked, -⟩ | ⟨-, hd⟩
  · simp [hm] at hunmasked
  · exact hd

/-- Settles O17: the mask is part of each producer's enabling condition. -/
theorem maskBlocksEveryProducer : Obligations.MaskBlocksEveryProducer := by
  intro p s hm
  have hno : ∀ t, turnEnabled t s = false → takeTurn p t s = .next s := fun t =>
    turnWithoutEnabledStepChangesNothing p t s
  refine ⟨hno _ ?lineDecoder, hno _ ?activeEdge, hno _ ?faultEdge, fun c => ?line⟩
  case lineDecoder => exact turnEnabled_lineDecoder_eq_false.2 (.inr hm)
  case activeEdge => simp [turnEnabled_activeEdgeService_eq_false, hm]
  case faultEdge => simp [turnEnabled_faultEdgeService_eq_false, hm]
  case line => rw [exec_ofLine, decodeStep_of_masked c hm]

/-- What waits for the block in `s` still waits in `t`: the word in `PAR`, the lines of `rxq` and the pending edges. -/
structure LosesNothing (s t : State) : Prop where
  par_eq : t.par = s.par
  rxq_kept : s.rxq <+: t.rxq
  pendA_kept : s.pendA = true → t.pendA = true
  pendF_kept : s.pendF = true → t.pendF = true

/-- A step that leaves all of these elements loses nothing. -/
theorem losesNothing_of_eq {s t : State} (hpar : t.par = s.par) (hrxq : t.rxq = s.rxq) (ha : t.pendA = s.pendA)
    (hf : t.pendF = s.pendF) : LosesNothing s t :=
  ⟨hpar, by rw [hrxq], by rw [ha]; exact id, by rw [hf]; exact id⟩

/-- The environment appends lines and sets pending bits; it takes nothing away (R38, R173, R174). -/
theorem envStep_losesNothing (p : MaskedEdge) (e : EnvStep) (s : State) : LosesNothing s (envStep p e s) := by
  cases e with
  | rx line => exact ⟨rfl, ⟨[line], rfl⟩, id, id⟩
  | setIa new =>
    rw [envStep, detectActiveEdge_eq]
    exact ⟨rfl, ⟨[], List.append_nil _⟩, fun ha => by simp [ha], id⟩
  | setFl new =>
    rw [envStep, detectFaultEdge_eq]
    exact ⟨rfl, ⟨[], List.append_nil _⟩, id, fun hf => by simp [hf]⟩
  | setEn | setSt | trip | rstok => exact losesNothing_of_eq rfl rfl rfl rfl

/-- Away from `Idle` the Dispatcher does not drain, and the rest belongs to the producers (R39, R201). -/
theorem ActionStep.losesNothing {s t : State} (h : ActionStep s t) (hbusy : s.ds ≠ .idle) : LosesNothing s t := by
  have hpar := h.par_eq.resolve_right fun hd => hbusy hd.1
  obtain ⟨par, ds, tmpEn, imask, obs, rfl⟩ := h.frame
  exact losesNothing_of_eq hpar rfl rfl rfl

/-- With the mask on and no drain to come, every turn but a power-up loses nothing (R137, R280). -/
theorem takeTurn_losesNothing {p : MaskedEdge} {t : Turn} {s s' : State} (hm : s.imask = true) (hbusy : s.ds ≠ .idle)
    (hpu : isPowerUp t = false) (h : takeTurn p t s = .next s') : LosesNothing s s' := by
  obtain ⟨hline, hactive, hfault, -⟩ := maskBlocksEveryProducer p s hm
  cases t with
  | lineDecoder => cases hline.symm.trans h; exact losesNothing_of_eq rfl rfl rfl rfl
  | activeEdgeService => cases hactive.symm.trans h; exact losesNothing_of_eq rfl rfl rfl rfl
  | faultEdgeService => cases hfault.symm.trans h; exact losesNothing_of_eq rfl rfl rfl rfl
  | dispatcher => exact (actionStep_of_dispatcherTurn h).losesNothing hbusy
  | env e => cases h; exact envStep_losesNothing p e s
  | powerUp d => cases hpu

/-- Settles O54, clause by clause from `LosesNothing`. -/
theorem maskedWindowLosesNothing : Obligations.MaskedWindowLosesNothing := by
  intro p t s s' hm hbusy hpu h
  obtain ⟨hpar, hrxq, ha, hf⟩ := takeTurn_losesNothing hm hbusy hpu h
  exact ⟨hpar, hrxq, ha, hf⟩

end Sys2Proof.Machine

/-! Settled here: the Line Decoder. A line has a command exactly when it is that command's literal (R150), and the step
consumes the line at the head of `rxq` and stages its command, if it has one (R151 to R155, R157). -/

namespace Sys2Proof.Machine

/-! ### Lines and literals -/

/-- The five literals differ from each other, so each one reaches its own arm of the decoder (R71, R150). -/
@[simp] theorem decodeCommand_lineLiteral (c : Command) : decodeCommand (lineLiteral c) = some c := by
  cases c <;> decide

theorem decodeCommand_eq_some_iff {line : Line} {c : Command} :
    decodeCommand line = some c ↔ line = lineLiteral c := by
  constructor
  · exact eq_lineLiteral_of_decodeCommand
  · rintro rfl
    exact decodeCommand_lineLiteral c

theorem decodeCommand_eq_none_iff {line : Line} :
    decodeCommand line = none ↔ ∀ c : Command, line ≠ lineLiteral c := by
  simp only [Option.eq_none_iff_forall_ne_some, ne_eq, decodeCommand_eq_some_iff]

/-- Settles O11: the literals are exactly the lines that have a command, so no other line has one. -/
theorem lineDecodesExactlyToItsLiteral : Obligations.LineDecodesExactlyToItsLiteral :=
  ⟨fun _ _ => decodeCommand_eq_some_iff, fun _ => decodeCommand_eq_none_iff⟩

/-! ### The Line Decoder's step -/

/-- Settles O19: the Line Decoder's turn on a line with a command, and on a line without one. -/
theorem lineDecoderStep : Obligations.LineDecoderStep := fun _ _ _ _ hq hm =>
  ⟨fun _ hc => lineDecoderTurn_of_command hq hm hc, fun hc => lineDecoderTurn_of_unrecognised hq hm hc⟩

/-- A command's literal at the head of `rxq` is consumed and leaves the command's word in `PAR` (R151 to R155, R157). -/
theorem exec_ofLine_of_literal {c : Command} {s : State} {rest : List Line} (hm : s.imask = false)
    (hq : s.rxq = lineLiteral c :: rest) :
    exec (Instr.ofLine c) s = .next { s with rxq := rest, par := encAction (.command c) } := by
  rw [exec_ofLine, decodeStep_of_literal hq hm]

/-- Settles O20: the bytes written out are the literals of the five commands, and the words are their codes. -/
theorem commandLinesStageTheirWords : Obligations.CommandLinesStageTheirWords := fun _ _ hm =>
  ⟨exec_ofLine_of_literal (c := .reset) hm, exec_ofLine_of_literal (c := .status) hm,
    exec_ofLine_of_literal (c := .faultRegister) hm, exec_ofLine_of_literal (c := .disable) hm,
    exec_ofLine_of_literal (c := .model) hm⟩

end Sys2Proof.Machine

/-! Settled here: the inputs of the FaultRegister latch (R170, R171), the two edge detectors (R173 to R175, R182) and the
two service steps of the Event Classifier (R177, R178). -/

namespace Sys2Proof.Machine

/-! ### The latch -/

/-- Settles O21: each input is one write of `FR`. -/
theorem latchInputsWriteTheLatch : Obligations.LatchInputsWriteTheLatch := fun _ _ =>
  ⟨fun _ => rfl, rfl⟩

/-! ### The edge detectors -/

/-- The step on `IA` is the detector, which compares with the old level, and then the write (R173). -/
theorem takeTurn_setIa (p : MaskedEdge) (new : Bool) (s : State) :
    takeTurn p (.env (.setIa new)) s = .next { detectActiveEdge p new s with ia := new } := rfl

/-- The step on `FL` is the detector, which compares with the old level, and then the write (R174). -/
theorem takeTurn_setFl (p : MaskedEdge) (new : Bool) (s : State) :
    takeTurn p (.env (.setFl new)) s = .next { detectFaultEdge p new s with fl := new } := rfl

/-- Settles O23: at a kept rising edge the detector sets `pend_a`, and otherwise it leaves the state. -/
theorem activeEdgeDetection : Obligations.ActiveEdgeDetection := by
  intro p new s
  rw [takeTurn_setIa]
  rcases detectActiveEdge_cases p new s with ⟨hold, hnew, hkept, hd⟩ | ⟨hnone, hd⟩
  · exact ⟨fun _ _ _ => by rw [hd], fun hnone => absurd ⟨hold, hnew, hkept⟩ hnone⟩
  · exact ⟨fun hold hnew hkept => absurd ⟨hold, hnew, hkept⟩ hnone, fun _ => by rw [hd]⟩

/-- Settles O24: at a kept rising edge the detector sets `pend_f`, and otherwise it leaves the state. -/
theorem faultEdgeDetection : Obligations.FaultEdgeDetection := by
  intro p new s
  rw [takeTurn_setFl]
  rcases detectFaultEdge_cases p new s with ⟨hold, hnew, hkept, hd⟩ | ⟨hnone, hd⟩
  · exact ⟨fun _ _ _ => by rw [hd], fun hnone => absurd ⟨hold, hnew, hkept⟩ hnone⟩
  · exact ⟨fun hold hnew hkept => absurd ⟨hold, hnew, hkept⟩ hnone, fun _ => by rw [hd]⟩

/-! ### The Event Classifier -/

/-- Settles O25: the enabled service stages the word of `ManualReset`, without a read of `IA`. -/
theorem activeEdgeServiceStagesManualReset : Obligations.ActiveEdgeServiceStagesManualReset :=
  fun p _ ha hm => takeTurn_activeEdgeService_of_enabled p ha hm

/-- Settles O26: the enabled service stages the word that `FR` selects. -/
theorem faultEdgeServiceClassifies : Obligations.FaultEdgeServiceClassifies := by
  intro p s hf hm
  rw [takeTurn_faultEdgeService_of_enabled p hf hm]
  constructor
  · intro hzero
    rw [if_pos hzero]
  · intro hnonzero
    rw [if_neg hnonzero]

end Sys2Proof.Machine

/-! Settled here: the Dispatcher. Its drain in `Idle` (R201), the steps of the eight actions (R205 to R212), that every
action ends within five of the Dispatcher's own turns (R216), and what an action puts out up to its end (R215). -/

namespace Sys2Proof.Machine

/-! ### The drain in `Idle` -/

/-- Settles O28, by what `PAR` holds; the mask is never on in `Idle`. -/
theorem drainStepInIdle : Obligations.DrainStepInIdle := by
  intro s hidle
  refine ⟨fun hempty p => dispatcherTurn_of_empty hidle hempty, fun a hpar => ?action, fun hinv => ?mask⟩
  case action =>
    have hexec : exec (Instr.ofAction a) s = .next { s with par := 0x00, ds := startOf a } := by
      rw [exec_of_idle a hidle]
      exact beginAction_of_action hpar
    exact ⟨hexec, fun p => (dispatcherTurn_of_idle hidle hpar).trans hexec⟩
  case mask =>
    have hmask := hinv.mask_matches
    simpa [hidle] using hmask

/-! ### The steps of the eight actions -/

/-- In `Proc(act, k)` the instruction of `act` answers what the Dispatcher's turn answers. -/
theorem exec_of_takeTurn_dispatcher {a : PendingAction} {s : State} {r : Result} (ha : actionOf s.ds = some a)
    (h : ∀ p : MaskedEdge, takeTurn p .dispatcher s = r) : exec (Instr.ofAction a) s = r :=
  (dispatcherTurn_of_action ha).symm.trans (h Config.maskedEdge)

/-- R205 step 0. -/
theorem exec_reset_zero {s : State} (hds : s.ds = .reset 0) :
    exec .reset s = .next (if s.ia then reply .active s else goto (.reset 1) s) := by
  simp only [exec, execReset, hds]
  rfl

/-- R205 step 2. -/
theorem exec_reset_two {s : State} (hds : s.ds = .reset 2) :
    exec .reset s = .next (if s.ia then reply .resetSuccess s else goto (.reset 3) s) := by
  simp only [exec, execReset, hds]
  rfl

/-- Settles O30, step by step: a test of `IA` chooses its branch, and the two sampling steps are the Dispatcher's
turns. -/
theorem resetActionSteps : Obligations.ResetActionSteps := by
  intro s
  refine ⟨?active, ?inactive, ?pulse, ?success, ?failed, ?holdEn, ?failReply⟩
  case active => intro hds hia; rw [exec_reset_zero hds, if_pos hia, reply_eq]
  case inactive => intro hds hia; rw [exec_reset_zero hds, if_neg (by simp [hia]), goto_eq]
  case pulse => intro hds; simp [exec, execReset, hds, goto_eq, pulse_eq]
  case success => intro hds hia; rw [exec_reset_two hds, if_pos hia, reply_eq]
  case failed => intro hds hia; rw [exec_reset_two hds, if_neg (by simp [hia]), goto_eq]
  case holdEn =>
    intro hds
    exact exec_of_takeTurn_dispatcher (a := .command .reset) (by rw [hds]; rfl) fun p =>
      takeTurn_dispatcher_reset_three p hds
  case failReply =>
    intro hds
    exact exec_of_takeTurn_dispatcher (a := .command .reset) (by rw [hds]; rfl) fun p =>
      takeTurn_dispatcher_reset_four p hds

/-- Settles O31: the two sampling steps as the Dispatcher's turns. -/
theorem statusActionSteps : Obligations.StatusActionSteps := by
  intro s
  constructor
  · intro hds
    exact exec_of_takeTurn_dispatcher (a := .command .status) (by rw [hds]; rfl) fun p =>
      takeTurn_dispatcher_status_zero p hds
  · intro hds
    exact exec_of_takeTurn_dispatcher (a := .command .status) (by rw [hds]; rfl) fun p =>
      takeTurn_dispatcher_status_one p hds

/-- Settles O32. -/
theorem faultRegisterActionReportsLatch : Obligations.FaultRegisterActionReportsLatch := by
  intro s hds
  simp [exec, execFaultRegister, hds, reply_eq, readFr]

/-- R208 step 0. -/
theorem exec_disable_zero {s : State} (hds : s.ds = .disable 0) :
    exec .disable s = .next (if s.ia then goto (.disable 1) s else reply .deactive s) := by
  simp only [exec, execDisable, hds]
  rfl

/-- R208 step 4. -/
theorem exec_disable_four {s : State} (hds : s.ds = .disable 4) :
    exec .disable s = .next (if s.ia then finish s else reply .disableSuccess s) := by
  simp only [exec, execDisable, hds]
  rfl

/-- Settles O33, step by step: a test of `IA` chooses its branch, and the pulse stands between the two writes of
`imask`. -/
theorem disableActionSteps : Obligations.DisableActionSteps := by
  intro s
  refine ⟨?inactive, ?active, ?mask, ?pulse, ?unmask, ?success, ?silent⟩
  case inactive => intro hds hia; rw [exec_disable_zero hds, if_neg (by simp [hia]), reply_eq]
  case active => intro hds hia; rw [exec_disable_zero hds, if_pos hia, goto_eq]
  case mask => intro hds; simp [exec, execDisable, hds, goto_eq, suppressInterrupts_eq]
  case pulse => intro hds; simp [exec, execDisable, hds, goto_eq, pulse_eq]
  case unmask => intro hds; simp [exec, execDisable, hds, goto_eq, restoreInterrupts_eq]
  case success => intro hds hia; rw [exec_disable_four hds, if_neg (by simp [hia]), reply_eq]
  case silent => intro hds hia; rw [exec_disable_four hds, if_pos hia, finish_eq]

/-- Settles O34: the token of the identity reply is `MODEL_ID`. -/
theorem modelActionReportsIdentity : Obligations.ModelActionReportsIdentity := by
  intro s hds
  have htext : replyText .identity = [0x4F, 0x43, 0x54, 0x4F, 0x2D, 0x4C, 0x4F, 0x4B] := rfl
  simp [exec, execModel, hds, reply_eq, htext]

/-- Settles O35. -/
theorem manualResetActionReplies : Obligations.ManualResetActionReplies := by
  intro s hds
  simp [exec, execManualReset, hds, reply_eq]

/-- Settles O36. -/
theorem manualDisableActionReplies : Obligations.ManualDisableActionReplies := by
  intro s hds
  simp [exec, execManualDisable, hds, reply_eq]

/-- Settles O37. -/
theorem faultActionReportsLatch : Obligations.FaultActionReportsLatch := by
  intro s hds
  simp [exec, execFault, hds, reply_eq, readFr]

/-! ### Every action ends (R216) -/

/-- The most steps that the Dispatcher has still to take in an action: the ranking function of R216. -/
def stepsLeft : DispState → Nat
  | .idle => 0
  | .reset k => 5 - k.val
  | .status k => 2 - k.val
  | .disable k => 5 - k.val
  | .faultRegister | .model | .manualReset | .manualDisable | .fault => 1

theorem stepsLeft_le_five (d : DispState) : stepsLeft d ≤ 5 := by
  cases d with
  | status k => simp only [stepsLeft]; omega
  | _ => simp [stepsLeft]

theorem idle_of_stepsLeft_eq_zero {d : DispState} (h : stepsLeft d = 0) : d = .idle := by
  cases d with
  | idle => rfl
  | reset k | status k | disable k => simp only [stepsLeft] at h; omega
  | faultRegister | model | manualReset | manualDisable | fault => simp [stepsLeft] at h

/-- The outcome is a next state, nearer to the end of the action than `d`. -/
def Advances (d : DispState) (r : Result) : Prop := ∃ t, r = .next t ∧ stepsLeft t.ds < stepsLeft d

theorem exec_reset_advances {s : State} {k : Fin 5} (hds : s.ds = .reset k) :
    Advances (.reset k) (exec .reset s) := by
  obtain ⟨hactive, hinactive, hpulse, hsuccess, hfailed, hholdEn, hfailReply⟩ := resetActionSteps s
  match k with
  | 0 =>
    cases hia : s.ia with
    | true => exact ⟨_, hactive hds hia, by simp [stepsLeft]⟩
    | false => exact ⟨_, hinactive hds hia, by simp [stepsLeft]⟩
  | 1 => exact ⟨_, hpulse hds, by simp [stepsLeft]⟩
  | 2 =>
    cases hia : s.ia with
    | true => exact ⟨_, hsuccess hds hia, by simp [stepsLeft]⟩
    | false => exact ⟨_, hfailed hds hia, by simp [stepsLeft]⟩
  | 3 => exact ⟨_, hholdEn hds, by simp [stepsLeft]⟩
  | 4 => exact ⟨_, hfailReply hds, by simp [stepsLeft]⟩

theorem exec_status_advances {s : State} {k : Fin 2} (hds : s.ds = .status k) :
    Advances (.status k) (exec .status s) := by
  obtain ⟨hholdEn, hreply⟩ := statusActionSteps s
  match k with
  | 0 => exact ⟨_, hholdEn hds, by simp [stepsLeft]⟩
  | 1 => exact ⟨_, hreply hds, by simp [stepsLeft]⟩

theorem exec_disable_advances {s : State} {k : Fin 5} (hds : s.ds = .disable k) :
    Advances (.disable k) (exec .disable s) := by
  obtain ⟨hinactive, hactive, hmask, hpulse, hunmask, hsuccess, hsilent⟩ := disableActionSteps s
  match k with
  | 0 =>
    cases hia : s.ia with
    | true => exact ⟨_, hactive hds hia, by simp [stepsLeft]⟩
    | false => exact ⟨_, hinactive hds hia, by simp [stepsLeft]⟩
  | 1 => exact ⟨_, hmask hds, by simp [stepsLeft]⟩
  | 2 => exact ⟨_, hpulse hds, by simp [stepsLeft]⟩
  | 3 => exact ⟨_, hunmask hds, by simp [stepsLeft]⟩
  | 4 =>
    cases hia : s.ia with
    | true => exact ⟨_, hsilent hds hia, by simp [stepsLeft]⟩
    | false => exact ⟨_, hsuccess hds hia, by simp [stepsLeft]⟩

/-- In an action the Dispatcher's turn never faults, and it goes one step nearer to the end. -/
theorem dispatcherTurn_advances {s : State} (hbusy : s.ds ≠ .idle) : Advances s.ds (dispatcherTurn s) := by
  obtain ⟨a, ha⟩ := Option.ne_none_iff_exists'.1 (mt actionOf_eq_none.1 hbusy)
  rw [dispatcherTurn_of_action ha]
  cases hds : s.ds <;> cases hds ▸ ha
  case reset => exact exec_reset_advances hds
  case status => exact exec_status_advances hds
  case disable => exact exec_disable_advances hds
  case faultRegister => exact ⟨_, faultRegisterActionReportsLatch s hds, by simp [stepsLeft]⟩
  case model => exact ⟨_, modelActionReportsIdentity s hds, by simp [stepsLeft]⟩
  case manualReset => exact ⟨_, manualResetActionReplies s hds, by simp [stepsLeft]⟩
  case manualDisable => exact ⟨_, manualDisableActionReplies s hds, by simp [stepsLeft]⟩
  case fault => exact ⟨_, faultActionReportsLatch s hds, by simp [stepsLeft]⟩

theorem lineDecoderTurn_ds {s t : State} (h : lineDecoderTurn s = .next t) : t.ds = s.ds := by
  obtain ⟨_, _, rfl⟩ := lineDecoderTurn_frame h
  rfl

/-- No turn takes the Dispatcher away from the end of its action, and its own turn takes it one step nearer. -/
theorem takeTurn_of_busy (p : MaskedEdge) (t : Turn) {s : State} (hbusy : s.ds ≠ .idle) :
    ∃ u, takeTurn p t s = .next u ∧ stepsLeft u.ds + [t].count .dispatcher ≤ stepsLeft s.ds := by
  cases t with
  | dispatcher => exact dispatcherTurn_advances hbusy
  | lineDecoder =>
    obtain ⟨u, hu⟩ := lineDecoderTurn_goes_on s
    exact ⟨u, hu, by rw [lineDecoderTurn_ds hu]; exact le_rfl⟩
  | activeEdgeService => exact ⟨_, rfl, by rw [activeEdgeService_ds]; exact le_rfl⟩
  | faultEdgeService => exact ⟨_, rfl, by rw [faultEdgeService_ds]; exact le_rfl⟩
  | env e => exact ⟨_, rfl, by rw [envStep_ds]; exact le_rfl⟩
  | powerUp d => exact ⟨_, rfl, Nat.zero_le _⟩

/-- A list with as many Dispatcher turns as the action has steps left reaches `Idle`. -/
theorem exists_idle_of_stepsLeft_le (p : MaskedEdge) (ts : List Turn) {s : State}
    (hleft : stepsLeft s.ds ≤ ts.count .dispatcher) :
    ∃ n s', n ≤ ts.length ∧ runTurns p (ts.take n) s = .next s' ∧ s'.ds = .idle := by
  induction ts generalizing s with
  | nil => exact ⟨0, s, le_rfl, rfl, idle_of_stepsLeft_eq_zero (Nat.le_zero.1 hleft)⟩
  | cons t ts ih =>
    by_cases hidle : s.ds = .idle
    · exact ⟨0, s, Nat.zero_le _, rfl, hidle⟩
    · obtain ⟨u, hu, hrank⟩ := takeTurn_of_busy p t hidle
      have hcount : (t :: ts).count .dispatcher = [t].count .dispatcher + ts.count .dispatcher :=
        List.count_append (l₁ := [t])
      obtain ⟨n, s', hn, hrun, hend⟩ := ih (s := u) (by omega)
      exact ⟨n + 1, s', Nat.succ_le_succ hn, (runTurns_cons_of_next _ hu).trans hrun, hend⟩

/-- Settles O44: no action has more than five steps left. -/
theorem actionsEndWithinFiveOwnSteps : Obligations.ActionsEndWithinFiveOwnSteps := fun p ts s _ hfive =>
  exists_idle_of_stepsLeft_le p ts ((stepsLeft_le_five s.ds).trans hfive)

/-! ### What an action puts out up to its end (R215) -/

/-- The most pulses that an action has still to make: Reset makes its pulse at step 1, Disable at step 2. -/
def pulsesLeft : DispState → Nat
  | .reset k => if k.val ≤ 1 then 1 else 0
  | .disable k => if k.val ≤ 2 then 1 else 0
  | _ => 0

theorem pulsesLeft_le_one (d : DispState) : pulsesLeft d ≤ 1 := by
  cases d with
  | reset k | disable k => simp only [pulsesLeft]; split_ifs <;> omega
  | _ => exact Nat.zero_le _

/-- `h` is what an action puts out from `d` to its end, with `IA = ia` at the last step: no more pulses than are left,
at most one reply, and no reply exactly at the end of a failed Disable. -/
structure Completes (d : DispState) (ia : Bool) (h : List Obs) : Prop where
  pulses_le : (pulsesOf h).length ≤ pulsesLeft d
  replies_le : (repliesOf h).length ≤ 1
  silent_iff : repliesOf h = [] ↔ actionOf d = some (.command .disable) ∧ ia = true

/-- A reply is the end of an action, but for Disable with `IA = 1`. -/
theorem completes_reply {d : DispState} {ia : Bool} (hd : ¬(actionOf d = some (.command .disable) ∧ ia = true))
    (r : Reply) : Completes d ia [.line (replyText r)] :=
  ⟨Nat.zero_le _, le_rfl, by simp [hd]⟩

/-- A step from `s` to `u` stays in the action, puts out `h` and no reply, and pays for its pulse. -/
structure StaysInAction (s u : State) (h : List Obs) : Prop where
  obs_eq : u.obs = s.obs ++ h
  action_eq : actionOf u.ds = actionOf s.ds
  no_reply : repliesOf h = []
  pulses_le : (pulsesOf h).length + pulsesLeft u.ds ≤ pulsesLeft s.ds

/-- A step that puts out nothing and stays in the action. -/
theorem staysInAction_of_obs_eq {s u : State} (hobs : u.obs = s.obs) (haction : actionOf u.ds = actionOf s.ds)
    (hpulses : pulsesLeft u.ds ≤ pulsesLeft s.ds) : StaysInAction s u [] :=
  ⟨by simp [hobs], haction, rfl, by simpa using hpulses⟩

/-- What a step puts out stands before what the rest of the action puts out. -/
theorem StaysInAction.completes_append {s u : State} {h k : List Obs} {ia : Bool} (hs : StaysInAction s u h)
    (hk : Completes u.ds ia k) : Completes s.ds ia (h ++ k) where
  pulses_le := by
    have hstep := hs.pulses_le
    have hrest := hk.pulses_le
    rw [pulsesOf_append, List.length_append]
    omega
  replies_le := by simpa [hs.no_reply] using hk.replies_le
  silent_iff := by simpa [hs.no_reply, hs.action_eq] using hk.silent_iff

/-- A turn in an action stays in it, or ends it with what completes it. -/
def StaysOrEnds (s u : State) : Prop :=
  (∃ h, StaysInAction s u h) ∨ (u.ds = .idle ∧ ∃ h, u.obs = s.obs ++ h ∧ Completes s.ds u.ia h)

/-- A final reply ends the action. -/
theorem staysOrEnds_of_reply {s u : State} {r : Reply} (hobs : u.obs = s.obs ++ [.line (replyText r)])
    (hidle : u.ds = .idle) (hd : ¬(actionOf s.ds = some (.command .disable) ∧ u.ia = true)) : StaysOrEnds s u :=
  .inr ⟨hidle, _, hobs, completes_reply hd r⟩

/-- Step by step through R205 to R212: where the action goes on it makes its pulse or puts out nothing, and where it
ends it replies, but for the last branch of Disable. -/
theorem ActionStep.staysOrEnds {s u : State} (h : ActionStep s u) (hbusy : s.ds ≠ .idle) : StaysOrEnds s u := by
  cases h
  case drain hds _ => exact absurd hds hbusy
  case wait => exact .inl ⟨[], staysInAction_of_obs_eq rfl rfl le_rfl⟩
  case resetPulse hds | disablePulse hds =>
    exact .inl ⟨_, rfl, by rw [hds]; rfl, rfl, by simp [hds, pulsesLeft]⟩
  case resetInactive hds _ | resetFailed hds _ | resetHoldEn hds | statusHoldEn hds | disableActive hds _ |
      disableMask hds | disableUnmask hds =>
    exact .inl ⟨[], staysInAction_of_obs_eq rfl (by rw [hds]; rfl) (by simp [hds, pulsesLeft])⟩
  case disableSilent hds hia =>
    exact .inr ⟨rfl, [], (List.append_nil _).symm, Nat.zero_le _, Nat.zero_le _, by simp [hds, hia, actionOf]⟩
  case disableInactive hds hia | disableSuccess hds hia => exact staysOrEnds_of_reply rfl rfl (by simp [hia])
  case resetActive hds _ | resetSuccess hds _ | resetFailReply hds | statusReply hds | faultRegister hds | model hds |
      manualReset hds | manualDisable hds | fault hds =>
    exact staysOrEnds_of_reply rfl rfl (by simp [hds, actionOf])

/-- But for a power-up, only the Dispatcher's turn moves the action or puts anything out (R39). -/
theorem takeTurn_staysOrEnds {p : MaskedEdge} {t : Turn} {s u : State} (hpu : isPowerUp t = false)
    (hbusy : s.ds ≠ .idle) (h : takeTurn p t s = .next u) : StaysOrEnds s u := by
  by_cases ht : t = .dispatcher
  · subst ht
    exact (actionStep_of_dispatcherTurn h).staysOrEnds hbusy
  · obtain ⟨-, -, howner, -⟩ := onlyTheOwnersWrite p t s u hpu h
    have hds : u.ds = s.ds := by_contra fun hne => ht (howner (.inl hne))
    have hobs : u.obs = s.obs := by_contra fun hne => ht (howner (.inr (.inr (.inr hne))))
    exact .inl ⟨[], staysInAction_of_obs_eq hobs (by rw [hds]) (by rw [hds])⟩

/-- `Idle` is met at the end of the run only. -/
def FirstIdleAtEnd (p : MaskedEdge) (ts : List Turn) (s : State) : Prop :=
  ∀ n u, n < ts.length → runTurns p (ts.take n) s = .next u → u.ds ≠ .idle

theorem FirstIdleAtEnd.tail {p : MaskedEdge} {t : Turn} {ts : List Turn} {s u : State}
    (h : FirstIdleAtEnd p (t :: ts) s) (hu : takeTurn p t s = .next u) : FirstIdleAtEnd p ts u :=
  fun n v hn hv => h (n + 1) v (Nat.succ_lt_succ hn) ((runTurns_cons_of_next _ hu).trans hv)

theorem FirstIdleAtEnd.eq_nil_of_idle {p : MaskedEdge} {ts : List Turn} {s : State} (h : FirstIdleAtEnd p ts s)
    (hidle : s.ds = .idle) : ts = [] := by
  cases ts with
  | nil => rfl
  | cons t ts => exact absurd hidle (h 0 s (Nat.succ_pos _) rfl)

/-- What a run up to the first `Idle` puts out completes the action it begins in: by induction on the turns, where a
turn that stays in the action puts its output before the rest, and one that ends it is the last. -/
theorem runTurns_completes {p : MaskedEdge} {ts : List Turn} {s s' : State} (hpu : ∀ t ∈ ts, isPowerUp t = false)
    (hbusy : s.ds ≠ .idle) (hrun : runTurns p ts s = .next s') (hend : s'.ds = .idle)
    (hfirst : FirstIdleAtEnd p ts s) : ∃ h, s'.obs = s.obs ++ h ∧ Completes s.ds s'.ia h := by
  induction ts generalizing s with
  | nil => cases hrun; exact absurd hend hbusy
  | cons t ts ih =>
    obtain ⟨u, hu, hrest⟩ := runTurns_cons_eq_next hrun
    rcases takeTurn_staysOrEnds (hpu t List.mem_cons_self) hbusy hu with ⟨h, hstay⟩ | ⟨hidle, h, hobs, hdone⟩
    · have hbusy' : u.ds ≠ .idle := fun hidle =>
        hbusy (actionOf_eq_none.1 (hstay.action_eq ▸ actionOf_eq_none.2 hidle))
      obtain ⟨k, hk, hdone⟩ := ih (fun t' ht' => hpu t' (List.mem_cons_of_mem _ ht')) hbusy' hrest (hfirst.tail hu)
      exact ⟨h ++ k, by rw [hk, hstay.obs_eq, List.append_assoc], hstay.completes_append hdone⟩
    · obtain rfl := (hfirst.tail hu).eq_nil_of_idle hidle
      cases hrest
      exact ⟨h, hobs, hdone⟩

theorem startOf_ne_idle (a : PendingAction) : startOf a ≠ .idle := fun hidle => by
  have haction := actionOf_startOf a
  rw [actionOf_eq_none.2 hidle] at haction
  cases haction

/-- Settles O45: the run completes the action that it begins in. -/
theorem everyActionRepliesAtMostOnce : Obligations.EveryActionRepliesAtMostOnce := by
  intro p a ts s s' hpu hstart hrun hend hfirst
  have hno : ∀ t ∈ ts, isPowerUp t = false := by simpa [noPowerUp] using hpu
  obtain ⟨h, hobs, hpulses, hreplies, hsilent⟩ :=
    runTurns_completes hno (hstart ▸ startOf_ne_idle a) hrun hend hfirst
  rw [hstart, actionOf_startOf, Option.some_inj] at hsilent
  refine ⟨h, hobs, hpulses.trans (pulsesLeft_le_one _), hreplies, fun hne => ?replies, fun heq => ?disable⟩
  case replies =>
    have hsome : repliesOf h ≠ [] := fun hnil => hne (hsilent.1 hnil).1
    exact le_antisymm hreplies (List.length_pos_iff.2 hsome)
  case disable => rw [hsilent, and_iff_right heq]

end Sys2Proof.Machine

/-! Settled here: progress under a weakly fair schedule (R216, R284), what a producer reads late (R275, R276), and the
echoes of a remote reset and of a remote disable (R278, R279). -/

namespace Sys2Proof.Machine

/-! ### The first turns of an unending schedule -/

theorem firstTurns_succ (sched : Nat → Turn) (n : Nat) : firstTurns sched (n + 1) = firstTurns sched n ++ [sched n] := by
  simp [firstTurns, List.range_succ]

@[simp] theorem firstTurns_length (sched : Nat → Turn) (n : Nat) : (firstTurns sched n).length = n := by
  simp [firstTurns]

theorem take_firstTurns (sched : Nat → Turn) {n m : Nat} (h : n ≤ m) :
    (firstTurns sched m).take n = firstTurns sched n := by
  rw [firstTurns, ← List.map_take, List.take_range, Nat.min_eq_left h, firstTurns]

theorem count_firstTurns_mono (sched : Nat → Turn) (t : Turn) {n m : Nat} (h : n ≤ m) :
    (firstTurns sched n).count t ≤ (firstTurns sched m).count t := by
  rw [← take_firstTurns sched h]
  exact (List.take_sublist n _).count_le t

/-- A turn that always comes again comes as often as one likes: each next one lies past the
first turns that hold the ones before it. -/
theorem exists_le_count_firstTurns {sched : Nat → Turn} {t : Turn} (hagain : ∀ n, ∃ m, n ≤ m ∧ sched m = t) (k : Nat) :
    ∃ n, k ≤ (firstTurns sched n).count t := by
  induction k with
  | zero => exact ⟨0, Nat.zero_le _⟩
  | succ k ih =>
    obtain ⟨n, hn⟩ := ih
    obtain ⟨m, hnm, rfl⟩ := hagain n
    refine ⟨m + 1, ?_⟩
    rw [firstTurns_succ, List.count_append, List.count_singleton_self]
    exact Nat.succ_le_succ (hn.trans (count_firstTurns_mono sched (sched m) hnm))

/-! ### Progress (R284) -/

/-- In an action the Dispatcher's step is enabled, whatever `PAR` holds. -/
theorem turnEnabled_dispatcher_of_busy {s : State} (hbusy : s.ds ≠ .idle) : turnEnabled .dispatcher s = true := by
  simp [turnEnabled, hbusy]

/-- No turn faults in an action, so a schedule that never meets `Idle` runs on for ever. -/
theorem runTurns_firstTurns_of_never_idle {p : MaskedEdge} {sched : Nat → Turn} {s : State}
    (hnever : ∀ n s', runTurns p (firstTurns sched n) s = .next s' → s'.ds ≠ .idle) (n : Nat) :
    ∃ s', runTurns p (firstTurns sched n) s = .next s' ∧ s'.ds ≠ .idle := by
  induction n with
  | zero => exact ⟨s, rfl, hnever 0 s rfl⟩
  | succ n ih =>
    obtain ⟨u, hrun, hbusy⟩ := ih
    obtain ⟨v, hv, -⟩ := takeTurn_of_busy p (sched n) hbusy
    have hrun' : runTurns p (firstTurns sched (n + 1)) s = .next v := by
      rw [firstTurns_succ, runTurns_append_of_next _ hrun, runTurns_cons_of_next _ hv, runTurns_nil]
    exact ⟨v, hrun', hnever _ v hrun'⟩

/-- Settles O56: a run that never met `Idle` would keep the Dispatcher's step enabled, so fairness would give the
Dispatcher five turns, within which every action ends (R216). -/
theorem fairSchedulesEndEveryAction : Obligations.FairSchedulesEndEveryAction := by
  intro p sched s hfair hbusy
  by_contra hno
  have hnever : ∀ n s', runTurns p (firstTurns sched n) s = .next s' → s'.ds ≠ .idle :=
    fun n s' hrun hidle => hno ⟨n, s', hrun, hidle⟩
  have hagain : ∀ n, ∃ m, n ≤ m ∧ sched m = .dispatcher := fun n =>
    hfair .dispatcher List.mem_cons_self n fun m _ =>
      (runTurns_firstTurns_of_never_idle hnever m).imp fun _ h => ⟨h.1, turnEnabled_dispatcher_of_busy h.2⟩
  obtain ⟨m, hfive⟩ := exists_le_count_firstTurns hagain 5
  obtain ⟨n, s', hn, hrun, hidle⟩ := actionsEndWithinFiveOwnSteps p (firstTurns sched m) s hbusy hfive
  rw [firstTurns_length] at hn
  rw [take_firstTurns sched hn] at hrun
  exact hnever n s' hrun hidle

/-! ### The Dispatcher's turns that the scenarios take -/

/-- In `Proc(act, k)` the Dispatcher's turn answers what the instruction of `act` answers. -/
theorem takeTurn_dispatcher_of_exec (p : MaskedEdge) (a : PendingAction) {s : State} {r : Result}
    (ha : actionOf s.ds = some a) (h : exec (Instr.ofAction a) s = r) : takeTurn p .dispatcher s = r :=
  (dispatcherTurn_of_action ha).trans h

theorem takeTurn_dispatcher_fault (p : MaskedEdge) {s : State} (hds : s.ds = .fault) :
    takeTurn p .dispatcher s = .next { s with obs := s.obs ++ [.line (replyText (.fault s.fr))], ds := .idle } :=
  takeTurn_dispatcher_of_exec p (.event .fault) (by rw [hds]; rfl) (faultActionReportsLatch s hds)

theorem takeTurn_dispatcher_reset_one (p : MaskedEdge) {s : State} (hds : s.ds = .reset 1) :
    takeTurn p .dispatcher s = .next { s with obs := s.obs ++ [.pulse .reset], ds := .reset 2 } := by
  obtain ⟨-, -, hpulse, -⟩ := resetActionSteps s
  exact takeTurn_dispatcher_of_exec p (.command .reset) (by rw [hds]; rfl) (hpulse hds)

theorem takeTurn_dispatcher_reset_two_of_active (p : MaskedEdge) {s : State} (hds : s.ds = .reset 2)
    (hia : s.ia = true) :
    takeTurn p .dispatcher s =
      .next { s with obs := s.obs ++ [.line (replyText .resetSuccess)], ds := .idle } := by
  obtain ⟨-, -, -, hsuccess, -⟩ := resetActionSteps s
  exact takeTurn_dispatcher_of_exec p (.command .reset) (by rw [hds]; rfl) (hsuccess hds hia)

theorem takeTurn_dispatcher_disable_two (p : MaskedEdge) {s : State} (hds : s.ds = .disable 2) :
    takeTurn p .dispatcher s = .next { s with obs := s.obs ++ [.pulse .disable], ds := .disable 3 } := by
  obtain ⟨-, -, -, hpulse, -⟩ := disableActionSteps s
  exact takeTurn_dispatcher_of_exec p (.command .disable) (by rw [hds]; rfl) (hpulse hds)

theorem takeTurn_dispatcher_disable_three (p : MaskedEdge) {s : State} (hds : s.ds = .disable 3) :
    takeTurn p .dispatcher s = .next { s with imask := false, ds := .disable 4 } := by
  obtain ⟨-, -, -, -, hunmask, -⟩ := disableActionSteps s
  exact takeTurn_dispatcher_of_exec p (.command .disable) (by rw [hds]; rfl) (hunmask hds)

theorem takeTurn_dispatcher_disable_four_of_inactive (p : MaskedEdge) {s : State} (hds : s.ds = .disable 4)
    (hia : s.ia = false) :
    takeTurn p .dispatcher s =
      .next { s with obs := s.obs ++ [.line (replyText .disableSuccess)], ds := .idle } := by
  obtain ⟨-, -, -, -, -, hsuccess, -⟩ := disableActionSteps s
  exact takeTurn_dispatcher_of_exec p (.command .disable) (by rw [hds]; rfl) (hsuccess hds hia)

/-- A staged action that replies at its step 0 is over after two turns of the Dispatcher: the drain and the reply. -/
theorem runTurns_drain_and_reply (p : MaskedEdge) {a : PendingAction} {r : Reply} {s : State} (hidle : s.ds = .idle)
    (hpar : s.par = encAction a)
    (hreply : ∀ u : State, u.ds = startOf a →
      exec (Instr.ofAction a) u = .next { u with obs := u.obs ++ [.line (replyText r)], ds := .idle }) :
    runTurns p [.dispatcher, .dispatcher] s =
      .next { s with par := 0x00, obs := s.obs ++ [.line (replyText r)], ds := .idle } := by
  obtain ⟨-, hdrain, -⟩ := drainStepInIdle s hidle
  rw [runTurns_cons_of_next _ ((hdrain a hpar).2 p),
    runTurns_cons_of_next _ (takeTurn_dispatcher_of_exec p a (actionOf_startOf a) (hreply _ rfl))]
  rfl

/-! ### What is read late (R275, R276) -/

/-- Settles O49: the latch input writes `FR`, and the action's one step reads it. -/
theorem faultPayloadIsReadLate : Obligations.FaultPayloadIsReadLate := by
  intro p t s hds
  obtain ⟨htrip, hrstok⟩ := latchInputsWriteTheLatch p s
  constructor
  · rw [runTurns_cons_of_next _ (htrip t)]
    exact runTurns_cons_of_next [] (takeTurn_dispatcher_fault p hds)
  · rw [runTurns_cons_of_next _ hrstok]
    exact runTurns_cons_of_next [] (takeTurn_dispatcher_fault p hds)

/-- Latching some channel leaves `FR` nonzero, whatever was latched before. -/
theorem or_ne_zero_of_right {v t : Byte} (ht : t ≠ 0x00) : v ||| t ≠ 0x00 := fun h =>
  ht (BitVec.or_eq_zero_iff.1 h).2

/-- Settles O50: the edge sets `pend_f` and keeps nothing of `FR`, which the latch input then writes before the service
reads it. -/
theorem classificationIsReadLate : Obligations.ClassificationIsReadLate := by
  intro p t s hfl hm ht
  have hedge := (faultEdgeDetection p true s).1 hfl rfl (.inl hm)
  obtain ⟨htrip, hrstok⟩ := latchInputsWriteTheLatch p { s with fl := true, pendF := true }
  constructor
  · have hservice :=
      (faultEdgeServiceClassifies p { s with fl := true, pendF := true, fr := s.fr ||| t } rfl hm).2
        (or_ne_zero_of_right ht)
    rw [runTurns_cons_of_next _ hedge, runTurns_cons_of_next _ (htrip t)]
    exact runTurns_cons_of_next [] hservice
  · have hservice := (faultEdgeServiceClassifies p { s with fl := true, pendF := true, fr := 0x00 } rfl hm).1 rfl
    rw [runTurns_cons_of_next _ hedge, runTurns_cons_of_next _ hrstok]
    exact runTurns_cons_of_next [] hservice

/-! ### The echoes of the actuators (R278, R279) -/

/-- The service and a successful step 2 of Reset write different elements, and neither reads what the other writes, so
both orders leave `ManualReset` in `PAR` and the reply put out. -/
theorem runTurns_activeEdgeService_and_reset_two (p : MaskedEdge) (ts : List Turn) {u : State} (hds : u.ds = .reset 2)
    (hia : u.ia = true) (ha : u.pendA = true) (hm : u.imask = false) :
    runTurns p (.activeEdgeService :: .dispatcher :: ts) u =
      runTurns p ts { u with pendA := false, par := 0xC0, ds := .idle,
                             obs := u.obs ++ [.line (replyText .resetSuccess)] } ∧
    runTurns p (.dispatcher :: .activeEdgeService :: ts) u =
      runTurns p ts { u with pendA := false, par := 0xC0, ds := .idle,
                             obs := u.obs ++ [.line (replyText .resetSuccess)] } := by
  constructor
  · have hreply := takeTurn_dispatcher_reset_two_of_active p (s := { u with pendA := false, par := 0xC0 }) hds hia
    rw [runTurns_cons_of_next _ (activeEdgeServiceStagesManualReset p u ha hm), runTurns_cons_of_next _ hreply]
  · have hservice := activeEdgeServiceStagesManualReset p
      { u with obs := u.obs ++ [.line (replyText .resetSuccess)], ds := .idle } ha hm
    rw [runTurns_cons_of_next _ (takeTurn_dispatcher_reset_two_of_active p hds hia), runTurns_cons_of_next _ hservice]

/-- Settles O52: after the pulse and the edge, both orders of the service and step 2 leave the same state, from which the
Dispatcher drains and answers `ManualReset`. -/
theorem remoteResetEchoes : Obligations.RemoteResetEchoes := by
  rintro p s hds hia hm final rfl
  have hpulse (ts : List Turn) : runTurns p (.dispatcher :: .env (.setIa true) :: ts) s =
      runTurns p ts { s with obs := s.obs ++ [.pulse .reset], ds := .reset 2, ia := true, pendA := true } := by
    have hedge := (activeEdgeDetection p true { s with obs := s.obs ++ [.pulse .reset], ds := .reset 2 }).1
      hia rfl (.inl hm)
    rw [runTurns_cons_of_next _ (takeTurn_dispatcher_reset_one p hds), runTurns_cons_of_next _ hedge]
  obtain ⟨hbefore, hafter⟩ := runTurns_activeEdgeService_and_reset_two p [.dispatcher, .dispatcher]
    (u := { s with obs := s.obs ++ [.pulse .reset], ds := .reset 2, ia := true, pendA := true }) rfl rfl rfl hm
  rw [hpulse, hpulse, hbefore, hafter, and_self,
    runTurns_drain_and_reply p (a := .event .manualReset) rfl rfl manualResetActionReplies]
  simp

/-- The pulse of Disable, and the interlock gone inactive, which is no rising edge (R175). -/
theorem runTurns_disable_two_then_inactive (p : MaskedEdge) (ts : List Turn) {s : State} (hds : s.ds = .disable 2) :
    runTurns p (.dispatcher :: .env (.setIa false) :: ts) s =
      runTurns p ts { s with obs := s.obs ++ [.pulse .disable], ds := .disable 3, ia := false } := by
  have hinactive := (activeEdgeDetection p false { s with obs := s.obs ++ [.pulse .disable], ds := .disable 3 }).2
    (by simp)
  rw [runTurns_cons_of_next _ (takeTurn_dispatcher_disable_two p hds), runTurns_cons_of_next _ hinactive]

/-- The end of the mask lets the service of a waiting edge run before the reply of Disable. -/
theorem runTurns_disable_three_of_pending (p : MaskedEdge) (ts : List Turn) {u : State} (hds : u.ds = .disable 3)
    (hia : u.ia = false) (hf : u.pendF = true) (hfr : u.fr = 0x00) :
    runTurns p (.dispatcher :: .faultEdgeService :: .dispatcher :: ts) u =
      runTurns p ts { u with imask := false, pendF := false, par := 0xC1, ds := .idle,
                             obs := u.obs ++ [.line (replyText .disableSuccess)] } := by
  have hservice := (faultEdgeServiceClassifies p { u with imask := false, ds := .disable 4 } hf rfl).1 hfr
  have hreply := takeTurn_dispatcher_disable_four_of_inactive p
    (s := { u with imask := false, ds := .disable 4, pendF := false, par := 0xC1 }) rfl hia
  rw [runTurns_cons_of_next _ (takeTurn_dispatcher_disable_three p hds), runTurns_cons_of_next _ hservice,
    runTurns_cons_of_next _ hreply]

/-- Without a waiting edge the service has no step there. -/
theorem runTurns_disable_three_of_not_pending (p : MaskedEdge) (ts : List Turn) {u : State} (hds : u.ds = .disable 3)
    (hia : u.ia = false) (hf : u.pendF = false) :
    runTurns p (.dispatcher :: .faultEdgeService :: .dispatcher :: ts) u =
      runTurns p ts { u with imask := false, ds := .idle, obs := u.obs ++ [.line (replyText .disableSuccess)] } := by
  have hservice := turnWithoutEnabledStepChangesNothing p .faultEdgeService { u with imask := false, ds := .disable 4 }
    (by simp [turnEnabled_faultEdgeService_eq_false, hf])
  have hreply := takeTurn_dispatcher_disable_four_of_inactive p
    (s := { u with imask := false, ds := .disable 4 }) rfl hia
  rw [runTurns_cons_of_next _ (takeTurn_dispatcher_disable_three p hds), runTurns_cons_of_next _ hservice,
    runTurns_cons_of_next _ hreply]

/-- Settles O53: under `Deferred` the masked edge waits in `pend_f` for the end of the mask, and the service classifies it
by `FR`; under `Dropped` it leaves no trace. -/
theorem remoteDisableEchoes : Obligations.RemoteDisableEchoes := by
  intro s hds hm hfl hfr
  refine ⟨?deferred, fun hpend => ?dropped⟩
  case deferred =>
    have hedge := (faultEdgeDetection .deferred true
      { s with obs := s.obs ++ [.pulse .disable], ds := .disable 3, ia := false }).1 hfl rfl (.inr rfl)
    have hend := runTurns_disable_three_of_pending .deferred [.dispatcher, .dispatcher]
      (u := { s with obs := s.obs ++ [.pulse .disable], ds := .disable 3, ia := false, fl := true, pendF := true })
      rfl rfl rfl hfr
    rw [runTurns_disable_two_then_inactive _ _ hds, runTurns_cons_of_next _ hedge, hend,
      runTurns_drain_and_reply _ (a := .event .manualDisable) rfl rfl manualDisableActionReplies]
    simp
  case dropped =>
    have hedge := (faultEdgeDetection .dropped true
      { s with obs := s.obs ++ [.pulse .disable], ds := .disable 3, ia := false }).2 (by simp [hm])
    have hend := runTurns_disable_three_of_not_pending .dropped []
      (u := { s with obs := s.obs ++ [.pulse .disable], ds := .disable 3, ia := false, fl := true }) rfl rfl hpend
    rw [runTurns_disable_two_then_inactive _ _ hds, runTurns_cons_of_next _ hedge, hend]
    simp

end Sys2Proof.Machine

/-! Settled here: an action that is not the current one has no step (entry 7). -/

namespace Sys2Proof.Machine

/-- While the Dispatcher executes another action, the step that the instruction of `a` selects by `ds` is neither its
drain step nor one of its own steps, so it is the wait. -/
theorem exec_ofAction_of_other {a : PendingAction} {s : State} (hbusy : s.ds ≠ .idle)
    (hother : actionOf s.ds ≠ some a) : exec (Instr.ofAction a) s = .next s := by
  cases a with
  | command c =>
    cases c <;>
      (simp only [exec, Instr.ofAction, execReset, execStatus, execFaultRegister, execDisable, execModel]
       split
       · next hidle => exact absurd hidle hbusy
       any_goals rfl
       all_goals next hown => exact absurd (congrArg actionOf hown) hother)
  | event e =>
    cases e <;>
      (simp only [exec, Instr.ofAction, execManualReset, execManualDisable, execFault]
       split
       · next hidle => exact absurd hidle hbusy
       any_goals rfl
       all_goals next hown => exact absurd (congrArg actionOf hown) hother)

/-- With another action in `PAR` the drain step takes nothing out. -/
theorem beginAction_of_other {a b : PendingAction} {s : State} (hba : b ≠ a) (hpar : s.par = encAction b) :
    beginAction a s = .next s := by
  simp [beginAction, drain_of_action hpar, hba]

/-- Settles O38: in `Proc(b, k)` the instruction of `a` waits, and in `Idle` it is its drain step, which leaves `b`. -/
theorem otherActionsWait : Obligations.OtherActionsWait := by
  intro a b s hba
  constructor
  · intro hact
    have hbusy : s.ds ≠ .idle := fun hidle => by simp [actionOf_eq_none.2 hidle] at hact
    exact exec_ofAction_of_other hbusy fun ha => hba (Option.some.inj (hact.symm.trans ha))
  · intro hidle hpar
    rw [exec_of_idle a hidle, beginAction_of_other hba hpar]

end Sys2Proof.Machine
